-- ==== Sys2Proof/Word.lean ====
section
/-! DEFINITION. The word type of the block and the types of a pin level and of a text (spec/00_scope.md R11, R12). -/

namespace Sys2Proof

/-- One byte, as in the eight bytes of a word (R67). -/
abbrev Byte := BitVec 8

/-- A word: exactly 64 bits (R11, R90). Position 0, the first bit sampled or driven, is the most significant bit of the number. -/
abbrev Word := BitVec 64

/-- A text, such as a message or a status string, as its characters. -/
abbrev Text := List Char

/-- A pin level (R11). -/
inductive Level where
  | low
  | high
  deriving DecidableEq, Repr, Inhabited

/-- The opposite level, for a clock taken on the inverted pin (R130). -/
def Level.flip : Level → Level
  | .low => .high
  | .high => .low

end Sys2Proof
end

