-- ==== Sys2Proof/Config.lean ====
section
/-! DEFINITION. The parameters of the block (spec/00_scope.md R9), the tables a parameter may hold, the constants the spec
fixes, and the free values: the pin levels of a tick for which nobody presented any (spec/20_memory.md R64). -/

namespace Sys2Proof

/-- The fourteen buttons (R18, R107). -/
inductive Button where
  | d0 | d1 | d2 | d3 | d4 | d5 | d6 | d7 | d8 | d9
  | star | pound | stay | away
  deriving DecidableEq, Repr

/-- The fifteen symbols: a button or idle (R18, R115). -/
inductive Symbol where
  | button (b : Button)
  | idle
  deriving DecidableEq, Repr

/-- The four zone groups (R95). -/
inductive Group where
  | g1 | g2 | g3 | g4
  deriving DecidableEq, Repr

/-- The three fixed messages (R97). -/
inductive FixedKind where
  | undefined
  | programMode
  | keypadQuery
  deriving DecidableEq, Repr

/-- One value for each zone group. -/
structure PerGroup (α : Type) where
  g1 : α
  g2 : α
  g3 : α
  g4 : α
  deriving DecidableEq, Repr

/-- The place of a field in a word: its first position and its width (R103). -/
structure FieldPos where
  off : Nat
  width : Nat
  deriving DecidableEq, Repr

/-- `PROFILE`: the numeric frame codes and payload offsets (R103). -/
structure Profile where
  codeLed : Nat
  codeDatetime : Nat
  codeZone : PerGroup Nat
  fixed : List (Nat × FixedKind)
  ledReady : Nat
  ledError : Nat
  ledBypass : Nat
  ledMemory : Nat
  ledArmed : Nat
  ledProgram : Nat
  ledUnused : List Nat
  dtYearHi : FieldPos
  dtYearLo : FieldPos
  dtMonth : FieldPos
  dtDay : FieldPos
  dtHour : FieldPos
  dtMinute : FieldPos
  zoneOff : Nat
  idleOff : Nat
  btnOff : Nat
  deriving DecidableEq, Repr

/-- The parameters of R9 that are not fixed numbers: constants "fixed before reset is released" (R33). -/
structure Params where
  nK : Nat
  capB2a : Nat
  capA2b : Nat
  bufFill : Bool
  clkInverted : Bool
  markEveryEdge : Bool
  profile : Profile
  /-- `CMDTAB`, indexed by symbol number (R232). -/
  cmdTab : Vector Word 15
  /-- `BTNTAB`, indexed by symbol number (R232). -/
  btnTab : Vector Nat 14
  deriving DecidableEq, Repr

namespace Config

/-- `W`, the frame width in symbols (R9). -/
abbrev frameWidth : Nat := 64
/-- `MIN_BITS` (R9). -/
abbrev minBits : Nat := 20
/-- `T_WINDOW` = 2.5 ms in ticks of 10 µs (R9). -/
abbrev tWindow : Nat := 250
/-- `N_H` (R9, decision D20). -/
abbrev nH : Nat := 22
/-- `N_P` (R9, decision D20). -/
abbrev nP : Nat := 12
/-- `KEYPAD_CODE` (R9). -/
abbrev keypadCode : Nat := 0xff
/-- `IDLE_W` (R9). -/
abbrev idleWidth : Nat := 32
/-- `BTN_W` (R9). -/
abbrev btnWidth : Nat := 20

/-- FREE VALUE (log 7): the level the environment shows on pin `CLK` at the n-th tick nobody scripted (R41, R64). -/
opaque freeClk : Nat → Level

/-- FREE VALUE (log 7): the level the environment shows on pin `DATA` at the n-th tick nobody scripted (R41, R64). -/
opaque freeData : Nat → Level

/-- FREE VALUE (log 31): the message of a record of kind KEYPAD whose button is none, for which R208 has no row. -/
opaque keypadNoneMessage : Text

end Config

end Sys2Proof
end

