-- ==== Sys2Proof/Machine/Operands.lean ====
section
/-! DEFINITION. Operand forms: the bits, fields and bytes of a word, the inversion between levels and bits, the numbering of
symbols and groups, and numbers as text (spec/00_scope.md R11 to R14, spec/20_memory.md R62, R65 to R67, R232, R208). -/

namespace Sys2Proof

/-- `w[p]`, the bit at position `p`; position 0 is the first in time and the top bit of the number (R11, R65). -/
def Word.bit (w : Word) (p : Nat) : Bool := w.getMsbD p

/-- `field(w, off, n)`: the bit at the lowest position is the most significant of the field (R13). R13 speaks of n at least 1; a
field of no bits is 0 (DESIGN CHOICE, log 32). -/
def field (w : Word) (off : Nat) : Nat → Nat
  | 0 => 0
  | n + 1 => 2 * field w off n + (Word.bit w (off + n)).toNat

/-- The number with one bit set, at position `p`. -/
def Word.oneAt (p : Nat) : Word := 1#64 <<< (63 - p)

/-- `buf[p] <- b` (R14). -/
def Word.setBit (w : Word) (p : Nat) (b : Bool) : Word :=
  if b then w ||| Word.oneAt p else w &&& ~~~ Word.oneAt p

/-- A buffer whose every position holds `BUF_FILL` (R135, R43). -/
def fillWord (b : Bool) : Word := if b then BitVec.allOnes 64 else 0#64

/-- Byte `j` of a word, `field(w, 8*j, 8)` (R67). -/
def Word.byte (w : Word) (j : Nat) : Nat := field w (8 * j) 8

/-- The word whose bits from position 0 are `l`, a missing bit being `fill` and a bit from position 64 on dropped (R210). -/
def wordOfSequence (fill : Bool) (l : List Bool) : Word :=
  (List.range 64).foldl (fun w p => Word.setBit w p (l.getD p fill)) 0#64

/-- `lbit`: a data level as a logical bit, `LOW` being 1 (R62). -/
def lbit : Level → Bool
  | .low => true
  | .high => false

/-- `plevel`: the level that drives a logical bit, 1 being `LOW` (R62). -/
def plevel (b : Bool) : Level := if b then .low else .high

/-- The idle level of the data line (R63). -/
def idleLevel : Level := .low

/-- The number of a button (R232). -/
def Button.num : Button → Fin 14
  | .d0 => 0 | .d1 => 1 | .d2 => 2 | .d3 => 3 | .d4 => 4 | .d5 => 5 | .d6 => 6
  | .d7 => 7 | .d8 => 8 | .d9 => 9 | .star => 10 | .pound => 11 | .stay => 12 | .away => 13

/-- The buttons in the order in which the matcher searches them (R233). -/
def Button.all : List Button :=
  [.d0, .d1, .d2, .d3, .d4, .d5, .d6, .d7, .d8, .d9, .star, .pound, .stay, .away]

/-- The number of a symbol (R232). -/
def Symbol.num : Symbol → Fin 15
  | .button b => b.num.castSucc
  | .idle => 14

/-- The button of a digit. -/
def Button.ofDigit (d : Fin 10) : Button :=
  match d.val with
  | 0 => .d0 | 1 => .d1 | 2 => .d2 | 3 => .d3 | 4 => .d4
  | 5 => .d5 | 6 => .d6 | 7 => .d7 | 8 => .d8 | _ => .d9

/-- The symbol a 4-bit hardware input selects; 15 is read as idle (R232). -/
def Symbol.ofInput (v : BitVec 4) : Symbol :=
  match v.toNat with
  | 0 => .button .d0 | 1 => .button .d1 | 2 => .button .d2 | 3 => .button .d3
  | 4 => .button .d4 | 5 => .button .d5 | 6 => .button .d6 | 7 => .button .d7
  | 8 => .button .d8 | 9 => .button .d9 | 10 => .button .star | 11 => .button .pound
  | 12 => .button .stay | 13 => .button .away | _ => .idle

/-- The number of a zone group, 1 to 4 (R95). -/
def Group.num : Group → Nat
  | .g1 => 1 | .g2 => 2 | .g3 => 3 | .g4 => 4

/-- `base(g) = 8*(g-1) + 1`, the first zone of the group (R195). -/
def Group.base (g : Group) : Nat := 8 * (g.num - 1) + 1

/-- The value of one group. -/
def PerGroup.get {α : Type} (x : PerGroup α) : Group → α
  | .g1 => x.g1 | .g2 => x.g2 | .g3 => x.g3 | .g4 => x.g4

/-- Replace the value of one group. -/
def PerGroup.set {α : Type} (x : PerGroup α) (g : Group) (v : α) : PerGroup α :=
  match g with
  | .g1 => { x with g1 := v }
  | .g2 => { x with g2 := v }
  | .g3 => { x with g3 := v }
  | .g4 => { x with g4 := v }

/-- The name of a button in messages and requests (R208, R115). -/
def Button.name : Button → Text
  | .d0 => ['0'] | .d1 => ['1'] | .d2 => ['2'] | .d3 => ['3'] | .d4 => ['4']
  | .d5 => ['5'] | .d6 => ['6'] | .d7 => ['7'] | .d8 => ['8'] | .d9 => ['9']
  | .star => "star".toList
  | .pound => "pound".toList
  | .stay => "stay".toList
  | .away => "away".toList

/-- `dec(n)`: a number in decimal with no padding (R208). -/
def decText (n : Nat) : Text := Nat.toDigits 10 n

/-- A byte as two lower-case hexadecimal digits (R258). -/
def hexByte (n : Nat) : Text := [Nat.digitChar (n / 16 % 16), Nat.digitChar (n % 16)]

end Sys2Proof
end

