-- ==== Sys2Proof/Syntax.lean ====
section
/-! DEFINITION. The operations of the block: one constructor for each row of spec/opcode_table.json, in the table's order. -/

namespace Sys2Proof

/-- The agents that own a queue end or read the status (R297); the bus environment performs no operation. -/
inductive Agent where
  | sampler
  | decoder
  | producer
  | predictor
  deriving DecidableEq, Repr

/-- The two queues (R34, R35). -/
inductive QueueId where
  | b2a
  | a2b
  deriving DecidableEq, Repr

/-- The two logical pins (R60). -/
inductive Pin where
  | clk
  | data
  deriving DecidableEq, Repr

/-- Pin directions `IN`, `OUT`, `INOUT` (R14). -/
inductive Dir where
  | input
  | output
  | bidir
  deriving DecidableEq, Repr

/-- The operations. An operand that is the answer of a pin read or of the clock is the environment's (R41, R251). -/
inductive Instr where
  -- format busword (R192): the operand is the whole word
  | decLed (w : Word)
  | decDatetime (w : Word)
  | decZone1 (w : Word)
  | decZone2 (w : Word)
  | decZone3 (w : Word)
  | decZone4 (w : Word)
  | decFixedProgramMode (w : Word)
  | decFixedKeypadQuery (w : Word)
  | decFixedUndefined39 (w : Word)
  | decFixedUndefined5d (w : Word)
  | decFixedUndefined63 (w : Word)
  | decFixedUndefined64 (w : Word)
  | decFixedUndefined69 (w : Word)
  | decFixedUndefinedB1 (w : Word)
  | decKeypad (w : Word)
  | decKeypadIdle (w : Word)
  | decKeypadButton (w : Word)
  | decKeypadUnknown (w : Word)
  | decOther (w : Word)
  -- format commandword (R230)
  | enc0
  | enc1
  | enc2
  | enc3
  | enc4
  | enc5
  | enc6
  | enc7
  | enc8
  | enc9
  | encStar
  | encPound
  | encStay
  | encAway
  | encIdle
  -- format button20 (R233)
  | matchB0
  | matchB1
  | matchB2
  | matchB3
  | matchB4
  | matchB5
  | matchB6
  | matchB7
  | matchB8
  | matchB9
  | matchStar
  | matchPound
  | matchStay
  | matchAway
  | matchUnknown (v : BitVec 20)
  -- format clock-pair (R114)
  | pollNoneLow
  | rise
  | fall
  | pollNoneHigh
  -- format port-op: the sampler (R130 to R142)
  | tick (clk data : Level)
  | poll (clk : Level)
  | boundaryMark
  | shortFrame
  | validFrame
  | resetFrame
  | drive
  | ksample (data : Level)
  | release
  | psample (data : Level)
  -- format port-op: the queues (R171 to R174), with the agent that asks (R74)
  | qpushOverwrite (a : Agent) (w : Word)
  | qpushReject (a : Agent) (w : Word)
  | qpop (a : Agent) (q : QueueId)
  | qcount (q : QueueId)
  -- format port-op: the rest
  | pinconfig (p : Pin) (d : Dir)
  | decode (w : Word)
  | encode (sym : BitVec 4)
  | render
  -- format request-line (R115, R116): the operand is the body without its terminator
  | reqDigits (ds : List (Fin 10))
  | reqStar
  | reqPound
  | reqStay
  | reqAway
  | reqIdle
  | reqTag
  | reqOther (body : List Byte)
  -- format host-op: `t` is the wall clock in whole seconds (R251, R252)
  | consume (w : Word) (t : Nat)
  | zonetrack (g : Group) (bitmap : BitVec 32) (t : Nat)
  deriving DecidableEq, Repr

end Sys2Proof
end

