-- ==== Sys2Proof/Machine/RequestSyntax.lean ====
section
/-! DEFINITION. The text of a request line and the row of the table it belongs to (spec/30_encoding.md R115, R116). -/

namespace Sys2Proof

/-- The line terminator, which is no part of a body (R116; log 21). -/
def lineEnd : Byte := 0x0a#8

/-- A spelling of R115 as bytes. -/
def spelling (t : Text) : List Byte := t.map (fun c => BitVec.ofNat 8 c.toNat)

def bodyStar : List Byte := spelling "star".toList
def bodyPound : List Byte := spelling "pound".toList
def bodyStay : List Byte := spelling "stay".toList
def bodyAway : List Byte := spelling "away".toList
def bodyIdle : List Byte := spelling "idle".toList
def bodyTag : List Byte := spelling "tag".toList

/-- The byte of a digit character. -/
def digitByte (d : Fin 10) : Byte := BitVec.ofNat 8 (48 + d.val)

/-- The digit a byte spells, if it spells one. -/
def byteDigit (b : Byte) : Option (Fin 10) :=
  if h : b.toNat - 48 < 10 then (if 48 ≤ b.toNat then some ⟨b.toNat - 48, h⟩ else none) else none

/-- The digits a body spells, if it spells nothing else. -/
def bodyDigits : List Byte → Option (List (Fin 10))
  | [] => some []
  | b :: bs => (byteDigit b).bind fun d => (bodyDigits bs).map (d :: ·)

/-- The row of a body that spells no name: one to four digits, else anything else (R115, R116). -/
def classifyDigits (body : List Byte) : Instr :=
  match bodyDigits body with
  | some ds => if 1 ≤ ds.length ∧ ds.length ≤ 4 then .reqDigits ds else .reqOther body
  | none => .reqOther body

/-- The row of a request body, compared character for character (R116). -/
def classifyRequest (body : List Byte) : Instr :=
  if body = bodyStar then .reqStar
  else if body = bodyPound then .reqPound
  else if body = bodyStay then .reqStay
  else if body = bodyAway then .reqAway
  else if body = bodyIdle then .reqIdle
  else if body = bodyTag then .reqTag
  else classifyDigits body

end Sys2Proof
end

