-- ==== Sys2Proof/Machine/Tables.lean ====
section
/-! DEFINITION. The default tables of the spec (spec/30_encoding.md R104, R110, R112), what makes a set of parameters well
formed (R103, R106, R9), and the reading of a table. -/

namespace Sys2Proof

/-- The default profile (R104). PRESUMED by the spec itself, log 2. -/
def defaultProfile : Profile where
  codeLed := 0x05
  codeDatetime := 0xa5
  codeZone := { g1 := 0x27, g2 := 0x2d, g3 := 0x34, g4 := 0x3e }
  fixed :=
    [(0x0a, .programMode), (0x11, .keypadQuery), (0x39, .undefined), (0x5d, .undefined),
     (0x63, .undefined), (0x64, .undefined), (0x69, .undefined), (0xb1, .undefined)]
  ledReady := 16
  ledError := 12
  ledBypass := 13
  ledMemory := 14
  ledArmed := 15
  ledProgram := 11
  ledUnused := [9, 10]
  dtYearHi := { off := 9, width := 4 }
  dtYearLo := { off := 13, width := 4 }
  dtMonth := { off := 19, width := 4 }
  dtDay := { off := 23, width := 5 }
  dtHour := { off := 28, width := 5 }
  dtMinute := { off := 33, width := 6 }
  zoneOff := 41
  idleOff := 8
  btnOff := 8

/-- The default command words, by symbol number (R110). PRESUMED by the spec itself, log 2. -/
def defaultCmdTab : Vector Word 15 :=
  #v[0xff807fffffffffff#64, 0xff82ffffffffffff#64, 0xff857fffffffffff#64, 0xff87ffffffffffff#64,
     0xff88ffffffffffff#64, 0xff8b7fffffffffff#64, 0xff8dffffffffffff#64, 0xff8e7fffffffffff#64,
     0xff917fffffffffff#64, 0xff93ffffffffffff#64, 0xff947fffffffffff#64, 0xff96ffffffffffff#64,
     0xffd7ffffffffffff#64, 0xffd8ffffffffffff#64, 0xffffffffffffffff#64]

/-- The default button identifiers, by symbol number (R112). PRESUMED by the spec itself, log 2. -/
def defaultBtnTab : Vector Nat 14 :=
  #v[0x807ff, 0x82fff, 0x857ff, 0x87fff, 0x88fff, 0x8b7ff, 0x8dfff, 0x8e7ff, 0x917ff, 0x93fff,
     0x947ff, 0x96fff, 0xd7fff, 0xd8fff]

/-- The parameters the model's reset takes. DESIGN CHOICE for `N_K` and the two capacities, which the spec leaves open (log 1). -/
def defaultParams : Params where
  nK := 12
  capB2a := 4
  capA2b := 2
  bufFill := false
  clkInverted := false
  markEveryEdge := true
  profile := defaultProfile
  cmdTab := defaultCmdTab
  btnTab := defaultBtnTab

/-- `CMDTAB[x]` (R105). -/
def Params.cmd (p : Params) (x : Symbol) : Word := p.cmdTab[x.num]

/-- `BTNTAB[b]` (R107). -/
def Params.btn (p : Params) (b : Button) : Nat := p.btnTab[b.num]

/-- The six single codes of a profile (R103). -/
def Profile.singleCodes (p : Profile) : List Nat :=
  [p.codeLed, p.codeDatetime, p.codeZone.g1, p.codeZone.g2, p.codeZone.g3, p.codeZone.g4]

/-- All the codes of kinds 1 to 8 (R92, R103). -/
def Profile.codes (p : Profile) : List Nat :=
  p.singleCodes ++ p.fixed.map Prod.fst ++ [Config.keypadCode]

/-- The six LED positions. -/
def Profile.ledPositions (p : Profile) : List Nat :=
  [p.ledReady, p.ledError, p.ledBypass, p.ledMemory, p.ledArmed, p.ledProgram]

/-- The six date and time fields. -/
def Profile.dtFields (p : Profile) : List FieldPos :=
  [p.dtYearHi, p.dtYearLo, p.dtMonth, p.dtDay, p.dtHour, p.dtMinute]

/-- A well-formed profile (R103). R103 gives no lower bound on the width of a date and time field; width 0 is admitted
(DESIGN CHOICE, log 32). -/
def Profile.wf (p : Profile) : Bool :=
  decide p.codes.Nodup && p.codes.all (· < 256)
    && decide p.ledPositions.Nodup && p.ledPositions.all (fun x => decide (8 ≤ x ∧ x < 64))
    && decide p.ledUnused.Nodup && p.ledUnused.all (fun x => decide (x < Config.frameWidth))
    && p.dtFields.all (fun f => decide (8 ≤ f.off ∧ f.off + f.width ≤ 64))
    && decide (8 ≤ p.zoneOff ∧ p.zoneOff ≤ 56)
    && decide (8 ≤ p.idleOff ∧ p.idleOff ≤ 32)
    && decide (8 ≤ p.btnOff ∧ p.btnOff ≤ 44)

/-- What the source requires of the two keypad tables (R106 a to d). -/
def Params.tablesWf (p : Params) : Bool :=
  (Button.all.map p.btn).Nodup
    && field (p.cmd .idle) 0 8 == Config.keypadCode
    && field (p.cmd .idle) p.profile.idleOff Config.idleWidth == 0xffffffff
    && Button.all.all (fun b =>
        field (p.cmd (.button b)) 0 8 == Config.keypadCode
          && field (p.cmd (.button b)) p.profile.idleOff Config.idleWidth != 0xffffffff
          && field (p.cmd (.button b)) p.profile.btnOff Config.btnWidth == p.btn b)

/-- Well-formed parameters: the ranges of R9, the profile of R103, the tables of R106. -/
def Params.wf (p : Params) : Bool :=
  decide (12 ≤ p.nK ∧ p.nK ≤ 30) && decide (1 ≤ p.capB2a) && decide (1 ≤ p.capA2b)
    && p.profile.wf && p.tablesWf

end Sys2Proof
end

