-- ==== Sys2Proof/WellFormed.lean ====
section
/-! DEFINITION. Which operations are well formed: the operand belongs to the row of spec/opcode_table.json the operation
stands for. The table's rows hold the numbers of the default profile (R117). -/

namespace Sys2Proof

/-- The codes that have a row of their own in the table (R113). -/
def rowCodes : List Nat :=
  [0x05, 0xa5, 0x27, 0x2d, 0x34, 0x3e, 0x0a, 0x11, 0x39, 0x5d, 0x63, 0x64, 0x69, 0xb1, 0xff]

/-- The code of a word (R91). -/
def Word.code (w : Word) : Nat := field w 0 8

/-- The table's idle test: positions 8 to 39 are ones (row DEC_KEYPAD_IDLE). -/
def rowIdle (w : Word) : Bool := field w 8 32 == 0xffffffff

/-- Whether a number is one of the fourteen button rows. -/
def isButtonRow (v : Nat) : Bool := defaultBtnTab.toList.contains v

/-- A well-formed operation. -/
def Instr.wf : Instr → Bool
  | .decLed w => w.code == 0x05
  | .decDatetime w => w.code == 0xa5
  | .decZone1 w => w.code == 0x27
  | .decZone2 w => w.code == 0x2d
  | .decZone3 w => w.code == 0x34
  | .decZone4 w => w.code == 0x3e
  | .decFixedProgramMode w => w.code == 0x0a
  | .decFixedKeypadQuery w => w.code == 0x11
  | .decFixedUndefined39 w => w.code == 0x39
  | .decFixedUndefined5d w => w.code == 0x5d
  | .decFixedUndefined63 w => w.code == 0x63
  | .decFixedUndefined64 w => w.code == 0x64
  | .decFixedUndefined69 w => w.code == 0x69
  | .decFixedUndefinedB1 w => w.code == 0xb1
  | .decKeypad w => w.code == 0xff
  | .decKeypadIdle w => w.code == 0xff && rowIdle w
  | .decKeypadButton w => w.code == 0xff && !rowIdle w && isButtonRow (field w 8 20)
  | .decKeypadUnknown w => w.code == 0xff && !rowIdle w && !isButtonRow (field w 8 20)
  | .decOther w => !rowCodes.contains w.code
  | .enc0 | .enc1 | .enc2 | .enc3 | .enc4 | .enc5 | .enc6 | .enc7 | .enc8 | .enc9 => true
  | .encStar | .encPound | .encStay | .encAway | .encIdle => true
  | .matchB0 | .matchB1 | .matchB2 | .matchB3 | .matchB4 | .matchB5 | .matchB6 | .matchB7 => true
  | .matchB8 | .matchB9 | .matchStar | .matchPound | .matchStay | .matchAway => true
  | .matchUnknown v => !isButtonRow v.toNat
  | .pollNoneLow | .rise | .fall | .pollNoneHigh => true
  | .tick _ _ | .poll _ | .boundaryMark | .shortFrame | .validFrame | .resetFrame => true
  | .drive | .ksample _ | .release | .psample _ => true
  | .qpushOverwrite _ _ | .qpushReject _ _ | .qpop _ _ | .qcount _ => true
  | .pinconfig _ _ | .decode _ | .encode _ | .render => true
  | .reqDigits ds => decide (1 ≤ ds.length ∧ ds.length ≤ 4)
  | .reqStar | .reqPound | .reqStay | .reqAway | .reqIdle | .reqTag => true
  | .reqOther body => !body.contains lineEnd && decide (classifyRequest body = .reqOther body)
  | .consume _ t => decide (t < 2 ^ 64)
  | .zonetrack _ _ t => decide (t < 2 ^ 64)

end Sys2Proof
end

