-- ==== Sys2Proof/Decode.lean ====
section
/-! DEFINITION. The operation decoder, total on any bytes, and the encoder. The spec gives bits to four formats only
(busword, commandword, button20, clock-pair; R117), and those bits stand here as it gives them; the byte that selects a
format or names a port operation, and the layout of port operands, are the model's own (log 5). -/

namespace Sys2Proof

/-- Why bytes are no operation. -/
inductive DecodeError where
  | empty
  | unknownOperation (b : Byte)
  | truncated
  | notACommandWord
  | reservedBits
  | badLevel
  | badAgent
  | badQueue
  | badPin
  | badDirection
  | badGroup
  | notAKeypadWord
  | noLineEnd
  | trailingBytes
  deriving DecidableEq, Repr

/-! ### The four formats the spec gives bits to -/

/-- The busword rows, by code (R192 over the default profile; the keypad kind split by R204 to R206). -/
def busRow (w : Word) : Instr :=
  match w.code with
  | 0x05 => .decLed w
  | 0xa5 => .decDatetime w
  | 0x27 => .decZone1 w
  | 0x2d => .decZone2 w
  | 0x34 => .decZone3 w
  | 0x3e => .decZone4 w
  | 0x0a => .decFixedProgramMode w
  | 0x11 => .decFixedKeypadQuery w
  | 0x39 => .decFixedUndefined39 w
  | 0x5d => .decFixedUndefined5d w
  | 0x63 => .decFixedUndefined63 w
  | 0x64 => .decFixedUndefined64 w
  | 0x69 => .decFixedUndefined69 w
  | 0xb1 => .decFixedUndefinedB1 w
  | 0xff =>
    if rowIdle w then .decKeypadIdle w
    else if isButtonRow (field w 8 20) then .decKeypadButton w
    else .decKeypadUnknown w
  | _ => .decOther w

/-- The commandword rows (R110). -/
def commandRow (w : Word) : Option Instr :=
  match w.toNat with
  | 0xff807fffffffffff => some .enc0
  | 0xff82ffffffffffff => some .enc1
  | 0xff857fffffffffff => some .enc2
  | 0xff87ffffffffffff => some .enc3
  | 0xff88ffffffffffff => some .enc4
  | 0xff8b7fffffffffff => some .enc5
  | 0xff8dffffffffffff => some .enc6
  | 0xff8e7fffffffffff => some .enc7
  | 0xff917fffffffffff => some .enc8
  | 0xff93ffffffffffff => some .enc9
  | 0xff947fffffffffff => some .encStar
  | 0xff96ffffffffffff => some .encPound
  | 0xffd7ffffffffffff => some .encStay
  | 0xffd8ffffffffffff => some .encAway
  | 0xffffffffffffffff => some .encIdle
  | _ => none

/-- The button20 rows (R112, R233). -/
def buttonRow (v : BitVec 20) : Instr :=
  match v.toNat with
  | 0x807ff => .matchB0
  | 0x82fff => .matchB1
  | 0x857ff => .matchB2
  | 0x87fff => .matchB3
  | 0x88fff => .matchB4
  | 0x8b7ff => .matchB5
  | 0x8dfff => .matchB6
  | 0x8e7ff => .matchB7
  | 0x917ff => .matchB8
  | 0x93fff => .matchB9
  | 0x947ff => .matchStar
  | 0x96fff => .matchPound
  | 0xd7fff => .matchStay
  | 0xd8fff => .matchAway
  | _ => .matchUnknown v

/-- The clock-pair rows: the first character is `prev_clk`, the second the level now (R114), read as a two-digit number. -/
def pairRow (b : Byte) : Option Instr :=
  match b.toNat with
  | 0 => some .pollNoneLow
  | 1 => some .rise
  | 2 => some .fall
  | 3 => some .pollNoneHigh
  | _ => none

/-! ### Operands -/

/-- The number that big-endian bytes spell. -/
def numOfBytes (bs : List Byte) : Nat := bs.foldl (fun acc b => 256 * acc + b.toNat) 0

/-- `k` big-endian bytes of a number. -/
def bytesOfNum : Nat → Nat → List Byte
  | 0, _ => []
  | k + 1, n => BitVec.ofNat 8 (n / 256 ^ k) :: bytesOfNum k n

/-- A decoder's answer: what it read and the bytes left, or why it read nothing. -/
abbrev Parsed (α : Type) := Except DecodeError (α × List Byte)

/-- Take a number of `k` bytes. -/
def takeNum (k : Nat) (bs : List Byte) : Parsed Nat :=
  if bs.length < k then .error .truncated else .ok (numOfBytes (bs.take k), bs.drop k)

/-- Take one byte. -/
def takeByte : List Byte → Parsed Byte
  | [] => .error .truncated
  | b :: bs => .ok (b, bs)

/-- Take a word, byte 0 first (R67). -/
def takeWord (bs : List Byte) : Parsed Word :=
  match takeNum 8 bs with
  | .ok (n, rest) => .ok (BitVec.ofNat 64 n, rest)
  | .error e => .error e

/-- Read what a byte names, or reject it as `e`. -/
def takeNamed {α : Type} (e : DecodeError) (f : Nat → Option α) (bs : List Byte) : Parsed α :=
  match takeByte bs with
  | .ok (b, rest) =>
    match f b.toNat with
    | some x => .ok (x, rest)
    | none => .error e
  | .error e' => .error e'

/-- The bytes of a line up to its terminator. -/
def takeLine : List Byte → Parsed (List Byte)
  | [] => .error .noLineEnd
  | b :: bs =>
    if b = lineEnd then .ok ([], bs)
    else
      match takeLine bs with
      | .ok (l, rest) => .ok (b :: l, rest)
      | .error e => .error e

/-- Build an operation from what was read. -/
def Parsed.map {α β : Type} (f : α → β) : Parsed α → Parsed β
  | .ok (x, rest) => .ok (f x, rest)
  | .error e => .error e

/-- Read one thing and then another. -/
def Parsed.andThen {α β : Type} (p : Parsed α) (k : α → List Byte → Parsed β) : Parsed β :=
  match p with
  | .ok (x, rest) => k x rest
  | .error e => .error e

def levelOf : Nat → Option Level
  | 0 => some .low | 1 => some .high | _ => none
def levelNum : Level → Nat
  | .low => 0 | .high => 1

/-- The two input levels of a tick: bit 1 the clock, bit 0 the data. -/
def levelsOf : Nat → Option (Level × Level)
  | 0 => some (.low, .low) | 1 => some (.low, .high) | 2 => some (.high, .low) | 3 => some (.high, .high) | _ => none

def agentOf : Nat → Option Agent
  | 0 => some .sampler | 1 => some .decoder | 2 => some .producer | 3 => some .predictor | _ => none
def agentNum : Agent → Nat
  | .sampler => 0 | .decoder => 1 | .producer => 2 | .predictor => 3

def queueOf : Nat → Option QueueId
  | 0 => some .b2a | 1 => some .a2b | _ => none
def queueNum : QueueId → Nat
  | .b2a => 0 | .a2b => 1

def pinOf : Nat → Option Pin
  | 0 => some .clk | 1 => some .data | _ => none
def pinNum : Pin → Nat
  | .clk => 0 | .data => 1

def dirOf : Nat → Option Dir
  | 0 => some .input | 1 => some .output | 2 => some .bidir | _ => none
def dirNum : Dir → Nat
  | .input => 0 | .output => 1 | .bidir => 2

def groupOf : Nat → Option Group
  | 1 => some .g1 | 2 => some .g2 | 3 => some .g3 | 4 => some .g4 | _ => none

def symOf (n : Nat) : Option (BitVec 4) := if n < 16 then some (BitVec.ofNat 4 n) else none

def takeLevel : List Byte → Parsed Level := takeNamed .badLevel levelOf
def takeLevels : List Byte → Parsed (Level × Level) := takeNamed .badLevel levelsOf
def takeAgent : List Byte → Parsed Agent := takeNamed .badAgent agentOf
def takeQueue : List Byte → Parsed QueueId := takeNamed .badQueue queueOf
def takePin : List Byte → Parsed Pin := takeNamed .badPin pinOf
def takeDir : List Byte → Parsed Dir := takeNamed .badDirection dirOf
def takeGroup : List Byte → Parsed Group := takeNamed .badGroup groupOf
def takeSym : List Byte → Parsed (BitVec 4) := takeNamed .reservedBits symOf
def takePair : List Byte → Parsed Instr := takeNamed .reservedBits (fun n => pairRow (BitVec.ofNat 8 n))

/-- A commandword row, or no command word. -/
def takeCommand (bs : List Byte) : Parsed Instr :=
  (takeWord bs).andThen fun w rest =>
    match commandRow w with
    | some i => .ok (i, rest)
    | none => .error .notACommandWord

/-- A button20 value: three bytes whose top four bits are zero. -/
def takeButton (bs : List Byte) : Parsed Instr :=
  (takeNum 3 bs).andThen fun n rest =>
    if n < 2 ^ 20 then .ok (buttonRow (BitVec.ofNat 20 n), rest) else .error .reservedBits

/-- A word of the keypad kind as a whole (row DEC_KEYPAD). -/
def takeKeypad (bs : List Byte) : Parsed Instr :=
  (takeWord bs).andThen fun w rest =>
    if w.code = 0xff then .ok (.decKeypad w, rest) else .error .notAKeypadWord

/-- Read one operation and leave the bytes after it. -/
def decodeOp : List Byte → Parsed Instr
  | [] => .error .empty
  | op :: rest =>
    match op.toNat with
    | 0x01 => (takeWord rest).map busRow
    | 0x02 => takeCommand rest
    | 0x03 => takeButton rest
    | 0x04 => takePair rest
    | 0x05 => takeKeypad rest
    | 0x10 => (takeLevels rest).map fun l => .tick l.1 l.2
    | 0x11 => (takeLevel rest).map .poll
    | 0x12 => .ok (.boundaryMark, rest)
    | 0x13 => .ok (.shortFrame, rest)
    | 0x14 => .ok (.validFrame, rest)
    | 0x15 => .ok (.resetFrame, rest)
    | 0x16 => .ok (.drive, rest)
    | 0x17 => (takeLevel rest).map .ksample
    | 0x18 => .ok (.release, rest)
    | 0x19 => (takeLevel rest).map .psample
    | 0x1a => (takeAgent rest).andThen fun a r => (takeWord r).map (.qpushOverwrite a)
    | 0x1b => (takeAgent rest).andThen fun a r => (takeWord r).map (.qpushReject a)
    | 0x1c => (takeAgent rest).andThen fun a r => (takeQueue r).map (.qpop a)
    | 0x1d => (takeQueue rest).map .qcount
    | 0x1e => (takePin rest).andThen fun p r => (takeDir r).map (.pinconfig p)
    | 0x1f => (takeWord rest).map .decode
    | 0x20 => (takeSym rest).map .encode
    | 0x21 => .ok (.render, rest)
    | 0x30 => (takeLine rest).map classifyRequest
    | 0x40 => (takeWord rest).andThen fun w r => (takeNum 8 r).map (.consume w)
    | 0x41 => (takeGroup rest).andThen fun g r => (takeNum 4 r).andThen fun m r' =>
        (takeNum 8 r').map (.zonetrack g (BitVec.ofNat 32 m))
    | _ => .error (.unknownOperation op)

/-- Read exactly one operation. Total: any bytes are an operation or rejected by name. -/
def decode (bs : List Byte) : Except DecodeError Instr :=
  match decodeOp bs with
  | .ok (i, []) => .ok i
  | .ok (_, _ :: _) => .error .trailingBytes
  | .error e => .error e

/-! ### The encoder -/

/-- The eight bytes of a word, byte 0 first (R67). -/
def bytesOfWord (w : Word) : List Byte := bytesOfNum 8 w.toNat

def busBytes (w : Word) : List Byte := 0x01 :: bytesOfWord w
def commandBytes (w : Word) : List Byte := 0x02 :: bytesOfWord w
def buttonBytes (v : Nat) : List Byte := 0x03 :: bytesOfNum 3 v
def lineBytes (body : List Byte) : List Byte := 0x30 :: (body ++ [lineEnd])
def nameByte (n : Nat) : Byte := BitVec.ofNat 8 n

/-- The bytes of an operation. -/
def encode : Instr → List Byte
  | .decLed w => busBytes w
  | .decDatetime w => busBytes w
  | .decZone1 w => busBytes w
  | .decZone2 w => busBytes w
  | .decZone3 w => busBytes w
  | .decZone4 w => busBytes w
  | .decFixedProgramMode w => busBytes w
  | .decFixedKeypadQuery w => busBytes w
  | .decFixedUndefined39 w => busBytes w
  | .decFixedUndefined5d w => busBytes w
  | .decFixedUndefined63 w => busBytes w
  | .decFixedUndefined64 w => busBytes w
  | .decFixedUndefined69 w => busBytes w
  | .decFixedUndefinedB1 w => busBytes w
  | .decKeypad w => 0x05 :: bytesOfWord w
  | .decKeypadIdle w => busBytes w
  | .decKeypadButton w => busBytes w
  | .decKeypadUnknown w => busBytes w
  | .decOther w => busBytes w
  | .enc0 => commandBytes 0xff807fffffffffff#64
  | .enc1 => commandBytes 0xff82ffffffffffff#64
  | .enc2 => commandBytes 0xff857fffffffffff#64
  | .enc3 => commandBytes 0xff87ffffffffffff#64
  | .enc4 => commandBytes 0xff88ffffffffffff#64
  | .enc5 => commandBytes 0xff8b7fffffffffff#64
  | .enc6 => commandBytes 0xff8dffffffffffff#64
  | .enc7 => commandBytes 0xff8e7fffffffffff#64
  | .enc8 => commandBytes 0xff917fffffffffff#64
  | .enc9 => commandBytes 0xff93ffffffffffff#64
  | .encStar => commandBytes 0xff947fffffffffff#64
  | .encPound => commandBytes 0xff96ffffffffffff#64
  | .encStay => commandBytes 0xffd7ffffffffffff#64
  | .encAway => commandBytes 0xffd8ffffffffffff#64
  | .encIdle => commandBytes 0xffffffffffffffff#64
  | .matchB0 => buttonBytes 0x807ff
  | .matchB1 => buttonBytes 0x82fff
  | .matchB2 => buttonBytes 0x857ff
  | .matchB3 => buttonBytes 0x87fff
  | .matchB4 => buttonBytes 0x88fff
  | .matchB5 => buttonBytes 0x8b7ff
  | .matchB6 => buttonBytes 0x8dfff
  | .matchB7 => buttonBytes 0x8e7ff
  | .matchB8 => buttonBytes 0x917ff
  | .matchB9 => buttonBytes 0x93fff
  | .matchStar => buttonBytes 0x947ff
  | .matchPound => buttonBytes 0x96fff
  | .matchStay => buttonBytes 0xd7fff
  | .matchAway => buttonBytes 0xd8fff
  | .matchUnknown v => buttonBytes v.toNat
  | .pollNoneLow => [0x04, 0]
  | .rise => [0x04, 1]
  | .fall => [0x04, 2]
  | .pollNoneHigh => [0x04, 3]
  | .tick c d => [0x10, nameByte (2 * levelNum c + levelNum d)]
  | .poll c => [0x11, nameByte (levelNum c)]
  | .boundaryMark => [0x12]
  | .shortFrame => [0x13]
  | .validFrame => [0x14]
  | .resetFrame => [0x15]
  | .drive => [0x16]
  | .ksample d => [0x17, nameByte (levelNum d)]
  | .release => [0x18]
  | .psample d => [0x19, nameByte (levelNum d)]
  | .qpushOverwrite a w => 0x1a :: nameByte (agentNum a) :: bytesOfWord w
  | .qpushReject a w => 0x1b :: nameByte (agentNum a) :: bytesOfWord w
  | .qpop a q => [0x1c, nameByte (agentNum a), nameByte (queueNum q)]
  | .qcount q => [0x1d, nameByte (queueNum q)]
  | .pinconfig p d => [0x1e, nameByte (pinNum p), nameByte (dirNum d)]
  | .decode w => 0x1f :: bytesOfWord w
  | .encode v => [0x20, nameByte v.toNat]
  | .render => [0x21]
  | .reqDigits ds => lineBytes (ds.map digitByte)
  | .reqStar => lineBytes bodyStar
  | .reqPound => lineBytes bodyPound
  | .reqStay => lineBytes bodyStay
  | .reqAway => lineBytes bodyAway
  | .reqIdle => lineBytes bodyIdle
  | .reqTag => lineBytes bodyTag
  | .reqOther body => lineBytes body
  | .consume w t => 0x40 :: (bytesOfWord w ++ bytesOfNum 8 t)
  | .zonetrack g m t => 0x41 :: nameByte g.num :: (bytesOfNum 4 m.toNat ++ bytesOfNum 8 t)

/-! ### Words numbered as spec/opcode_table.json numbers them (log 6) -/

/-- The low `k` bytes of a number, lowest first. -/
def lowBytes : Nat → Nat → List Byte
  | 0, _ => []
  | k + 1, n => BitVec.ofNat 8 n :: lowBytes k (n / 256)

/-- The bytes of an operation given in the model's own layout, first byte lowest, the operand bytes it lacks being zero. -/
def ownBytes (nbits w : Nat) : List Byte :=
  let bs := lowBytes ((nbits + 7) / 8) w ++ List.replicate 17 0
  match decodeOp bs with
  | .ok (_, rest) => bs.take (bs.length - rest.length)
  | .error _ => bs

/-- The request that presents a table word: 64 bits are a command word when they are one of the fifteen, else a bus word;
20 bits (24 in whole bytes) a button field; 2 bits (8 in whole bytes) a clock pair. -/
def tableBytes (nbits w : Nat) : List Byte :=
  if nbits = 64 then
    match commandRow (BitVec.ofNat 64 w) with
    | some _ => commandBytes (BitVec.ofNat 64 w)
    | none => busBytes (BitVec.ofNat 64 w)
  else if nbits = 20 ∨ nbits = 24 then buttonBytes w
  else if (nbits = 2 ∨ nbits = 8) ∧ w < 4 then [0x04, nameByte w]
  else ownBytes nbits w

/-- The operation the decoder reads from a table word. -/
def decodeTableWord (nbits w : Nat) : Option Instr :=
  match decode (tableBytes nbits w) with
  | .ok i => some i
  | .error _ => none

end Sys2Proof
end

