-- ==== Sys2Proof/Machine/State.lean ====
section
/-! DEFINITION. The state of the machine as plain data (spec/10_state.md R20 to R44, spec/60_exceptions.md R280, R296), the
reasons a step can stop, and the state after reset (R43, R40). INVENTORY.md lists every field with its rule. -/

namespace Sys2Proof.Machine

/-! ### The block -/

/-- `phase`, the sequencing state of the sampler (R21). -/
inductive Phase where
  | poll
  | kwait (n : Nat)
  | hwait (n : Nat)
  | pwait (n : Nat)
  deriving DecidableEq, Repr

/-- The events the block and its host can report (R280). -/
inductive Event where
  /-- code 1, `E_SHORT_FRAME`: a boundary with fewer than 20 bits; carries `bitcnt` -/
  | shortFrame (bits : Nat)
  /-- code 2, `E_B2A_OVERRUN`: a push dropped the oldest element; 0 the panel frame, 1 the keypad frame -/
  | b2aOverrun (which : Fin 2)
  /-- code 3, `E_A2B_FULL`: a push onto a full `a2b` was rejected -/
  | a2bFull
  /-- code 4, `E_PREDICT_FAIL`: the prediction collaborator could not be invoked -/
  | predictFail
  deriving DecidableEq, Repr

/-- A queue: its elements, oldest first (R34, R35), and the indices of its ring (R39 c, R178; log 12). -/
structure Queue where
  items : List Word
  wr : Nat
  rd : Nat
  deriving DecidableEq, Repr

/-- A queue right after reset (R178). -/
def Queue.empty : Queue := { items := [], wr := 0, rd := 0 }

/-! ### The decode record (R191) -/

/-- The kind of a frame (R191). -/
inductive Kind where
  | led
  | datetime
  | zone (g : Group)
  | fixed (k : FixedKind)
  | keypad
  | other
  deriving DecidableEq, Repr

/-- The six LED flags (R191). -/
structure Led where
  ready : Bool
  error : Bool
  bypass : Bool
  memory : Bool
  armed : Bool
  program : Bool
  deriving DecidableEq, Repr

/-- The six date and time numbers (R191). -/
structure DateTime where
  yearHi : Nat
  yearLo : Nat
  month : Nat
  day : Nat
  hour : Nat
  minute : Nat
  deriving DecidableEq, Repr

/-- The member `button` of a record (R191). -/
inductive ButtonOut where
  | symbol (x : Symbol)
  | unknown
  | none
  deriving DecidableEq, Repr

/-- The output record of `decode` (R191). Zone z stands at bit z - 1 of the bitmap. -/
structure DecodeOut where
  code : Nat
  kind : Kind
  led : Led
  dt : DateTime
  zoneBitmap : BitVec 32
  button : ButtonOut
  message : Text
  deriving DecidableEq, Repr

/-- The record with every member at its neutral value (R192). -/
def DecodeOut.neutral (code : Nat) : DecodeOut where
  code := code
  kind := .other
  led := { ready := false, error := false, bypass := false, memory := false, armed := false, program := false }
  dt := { yearHi := 0, yearLo := 0, month := 0, day := 0, hour := 0, minute := 0 }
  zoneBitmap := 0#32
  button := .none
  message := []

/-! ### The agents around the block (R40) -/

/-- A ZoneRecord: when the zone was last seen to become active and inactive, in seconds (R253). -/
structure ZoneRecord where
  act : Nat
  deact : Nat
  deriving DecidableEq, Repr

/-- PanelStatus (R257): zone z stands at index z - 1. -/
structure PanelStatus where
  obsTime : Nat
  led : Text
  zone : PerGroup Text
  zones : Vector ZoneRecord 32
  deriving DecidableEq, Repr

/-- The zone records at reset (R40). -/
def noZones : Vector ZoneRecord 32 := Vector.replicate 32 { act := 0, deact := 0 }

/-- PanelStatus at reset (R40). -/
def PanelStatus.initial : PanelStatus where
  obsTime := 0
  led := []
  zone := { g1 := [], g2 := [], g3 := [], g4 := [] }
  zones := noZones

/-- One invocation of the prediction collaborator: its arguments (R264). -/
structure PredCall where
  utc : Text
  obsTime : Nat
  stamps : List Nat
  deriving DecidableEq, Repr

/-! ### Results at the ports (R296; log 10) -/

/-- The answers of the operations, held so that they are part of the next state. -/
structure Ports where
  /-- `a2b_ok` -/
  a2bOk : Bool
  /-- the result `overrun` of `QPushOverwrite` -/
  b2aOverrun : Bool
  /-- `b2a_valid` and `b2a_word`: the answer of a pop of `b2a`, none when empty -/
  b2aPop : Option Word
  /-- the answer of a pop of `a2b` -/
  a2bPop : Option Word
  /-- what the latest `QCount(b2a)` answered its caller; the level output `b2a_count` is `State.countOut` -/
  b2aCount : Nat
  /-- what the latest `QCount(a2b)` answered its caller; the level output `a2b_count` is `State.countOut` -/
  a2bCount : Nat
  /-- the answer of `BOUNDARY` -/
  boundary : Bool
  /-- `dec_out` -/
  decOut : DecodeOut
  /-- `enc_word` -/
  encWord : Word
  /-- the answer of `MATCH`, none standing for unknown -/
  matchOut : Option Button
  /-- what the latest reader of StatusStore read -/
  snapshot : PanelStatus
  /-- the responder's latest response -/
  response : Text
  deriving DecidableEq, Repr

/-! ### What the outside world presents (log 4) -/

/-- The fatal conditions of the environment (R286). -/
inductive Fatal where
  | regmap
  | rtSetup
  | thread
  | clock
  deriving DecidableEq, Repr

/-- A request the responder has accepted and not yet answered: the symbols still to push, and the form of the response
(R116, R259; log 30). -/
structure Request where
  symbols : List Symbol
  json : Bool
  deriving DecidableEq, Repr

/-- The readers of StatusStore (R257). -/
inductive Reader where
  | responder
  | predictor
  deriving DecidableEq, Repr

/-- The past of StatusStore that a read may still meet (R80; log 20). -/
structure Reads where
  /-- the status before the update in progress, none when no update is in progress -/
  updating : Option PanelStatus
  /-- for a read the responder has begun, the older versions it may still meet, newest first -/
  responder : Option (List PanelStatus)
  /-- the same for a read the predictor has begun -/
  predictor : Option (List PanelStatus)
  deriving DecidableEq, Repr

/-- No update and no read in progress. -/
def Reads.initial : Reads := { updating := none, responder := none, predictor := none }

/-- What happens next. -/
inductive Action where
  /-- an operation of the table, as its bytes -/
  | op (bytes : List Byte)
  /-- the responder accepts a request line with this body; its pushes and its response are steps of their own (R259, R337) -/
  | request (body : List Byte)
  /-- the command producer takes one step of its request in progress: one push, or the response, each field of the status read
  as `pick` says (R297, R337, R80; log 30, log 20) -/
  | producerStep (pick : List Nat)
  /-- a reader begins to read the status; updates until its snapshot is taken may be mixed into it (R80; log 20) -/
  | readBegin (who : Reader)
  /-- the decoder agent pops `b2a` and consumes, at wall clock `t` (R250, R297) -/
  | decoderStep (t : Nat)
  /-- the predictor wakes, and a call it makes returns at once: `answer` is the collaborator's output lines, none when it cannot
  be invoked (R263, R264; log 33) -/
  | predictorWake (pick : List Nat) (utc : Text) (answer : Option (List Text))
  /-- the predictor wakes, and a call it makes has not returned yet (R263; log 33) -/
  | predictorCall (pick : List Nat) (utc : Text)
  /-- the call in progress returns (R263, R264; log 33) -/
  | predictorReturn (answer : Option (List Text))
  /-- the port `rst` (R296, R320) -/
  | rst
  /-- a fatal condition of the environment (R286) -/
  | fatal (f : Fatal)
  deriving DecidableEq, Repr

/-- The state. -/
structure State where
  params : Params
  phase : Phase
  prevClk : Level
  bitcnt : Nat
  pbuf : Word
  kbuf : Word
  curCmd : Word
  tMark : Nat
  now : Nat
  dataDrv : Level
  dirClk : Dir
  dirData : Dir
  b2a : Queue
  a2b : Queue
  evlog : List Event
  strobes : List Event
  status : PanelStatus
  reads : Reads
  traceIdx : Nat
  traceOut : List Text
  predLast : Vector ZoneRecord 32
  predWaiting : Option PredCall
  predCalls : List PredCall
  sideEffects : Nat
  requests : List Request
  ports : Ports
  agenda : List Action
  pinSeq : Nat
  deriving DecidableEq, Repr

/-- Why the machine stops with a fault: a fatal condition of the environment, presented by the agenda (R286, log 22). Each is
safe: the model stops where the process exits. -/
inductive Fault where
  /-- code 8, `F_REGMAP`: the hardware register mapping could not be obtained; raised by the step that meets `fatal regmap`; safe -/
  | regmap
  /-- code 9, `F_RT_SETUP`: real-time scheduling, CPU affinity or memory locking failed; raised by the step that meets `fatal rtSetup`; safe -/
  | rtSetup
  /-- code 10, `F_THREAD`: thread creation failed; raised by the step that meets `fatal thread`; safe -/
  | thread
  /-- code 11, `F_CLOCK`: the clock could not be queried; raised by the step that meets `fatal clock`; safe -/
  | clock
  deriving DecidableEq, Repr

/-- Why the machine refuses an operation. -/
inductive Refusal where
  /-- an instruction that has no meaning yet; raised by `exec`'s arm of it; safe -/
  | notModelled (mnemonic : String)
  /-- a queue operation asked for by an agent that does not own that end (R74, log 11); raised by the three queue operations; safe -/
  | notQueueOwner (a : Agent) (q : QueueId)
  /-- bytes presented as an operation that are none (log 5); raised by `step`; safe -/
  | notAnOperation (bytes : List Byte)
  deriving DecidableEq, Repr

/-- The ports' holders at reset (DESIGN CHOICE, log 10). -/
def Ports.initial (p : Params) : Ports where
  a2bOk := false
  b2aOverrun := false
  b2aPop := none
  a2bPop := none
  b2aCount := 0
  a2bCount := 0
  boundary := false
  decOut := DecodeOut.neutral 0
  encWord := p.cmd .idle
  matchOut := none
  snapshot := PanelStatus.initial
  response := []

/-- The state after reset of a block with parameters `p` (R43, R40; log 3 for the model's own fields). -/
def State.resetWith (p : Params) : State where
  params := p
  phase := .poll
  prevClk := .low
  bitcnt := 0
  pbuf := fillWord p.bufFill
  kbuf := fillWord p.bufFill
  curCmd := p.cmd .idle
  tMark := 0
  now := 0
  dataDrv := .low
  dirClk := .input
  dirData := .bidir
  b2a := Queue.empty
  a2b := Queue.empty
  evlog := []
  strobes := []
  status := PanelStatus.initial
  reads := Reads.initial
  traceIdx := 0
  traceOut := []
  predLast := noZones
  predWaiting := none
  predCalls := []
  sideEffects := 0
  requests := []
  ports := Ports.initial p
  agenda := []
  pinSeq := 0

/-- The state after reset, with the parameters of log 1. -/
def State.reset : State := State.resetWith defaultParams

end Sys2Proof.Machine
end

