-- ==== Sys2Proof/Machine/Codec.lean ====
section
/-! DEFINITION. FrameCodec: `decode` and its kinds, `render`, `encode` and the matcher (spec/42_decode.md,
spec/43_encode_matcher.md). Pure functions of the word and the constant tables (R190, R38). -/

namespace Sys2Proof.Machine

/-- `encode(x) = CMDTAB[x]` (R230). -/
def encodeSymbol (p : Params) (x : Symbol) : Word := p.cmd x

/-- `MATCH(v)`: the button whose row equals `v`; none stands for unknown (R233). -/
def matchButton (p : Params) (v : Nat) : Option Button := Button.all.find? fun b => v == p.btn b

/-! ### The kinds (R193 to R207) -/

/-- The record every kind starts from (R192). -/
def startRecord (w : Word) : DecodeOut := DecodeOut.neutral (field w 0 8)

/-- `DEC_LED` (R193). -/
def decLed (p : Profile) (w : Word) (out : DecodeOut) : DecodeOut :=
  { out with
    kind := .led
    led :=
      { ready := w.bit p.ledReady, error := w.bit p.ledError, bypass := w.bit p.ledBypass
        memory := w.bit p.ledMemory, armed := w.bit p.ledArmed, program := w.bit p.ledProgram } }

/-- A field at a place of the profile. -/
def fieldAt (w : Word) (f : FieldPos) : Nat := field w f.off f.width

/-- `DEC_DATETIME` (R194). -/
def decDatetime (p : Profile) (w : Word) (out : DecodeOut) : DecodeOut :=
  { out with
    kind := .datetime
    dt :=
      { yearHi := fieldAt w p.dtYearHi, yearLo := fieldAt w p.dtYearLo, month := fieldAt w p.dtMonth
        day := fieldAt w p.dtDay, hour := fieldAt w p.dtHour, minute := fieldAt w p.dtMinute } }

/-- `DEC_ZONE(g, ...)`: bit i of the 8-bit field is zone `base(g) + i` (R195). -/
def decZone (g : Group) (p : Profile) (w : Word) (out : DecodeOut) : DecodeOut :=
  { out with
    kind := .zone g
    zoneBitmap := BitVec.ofNat 32 (field w p.zoneOff 8) <<< (g.base - 1) }

/-- `DEC_FIXED(k)` (R200 to R202). -/
def decFixed (k : FixedKind) (out : DecodeOut) : DecodeOut := { out with kind := .fixed k }

/-- `KEYPAD idle` (R204). -/
def decKeypadIdle (out : DecodeOut) : DecodeOut :=
  { out with kind := .keypad, button := .symbol .idle }

/-- The answer of the matcher as the member `button` (R205, R206). -/
def buttonOut : Option Button → ButtonOut
  | some b => .symbol (.button b)
  | none => .unknown

/-- `KEYPAD button`: the button whose row the 20-bit field equals (R205). -/
def decKeypadButton (p : Params) (w : Word) (out : DecodeOut) : DecodeOut :=
  { out with
    kind := .keypad
    button := buttonOut (matchButton p (field w p.profile.btnOff Config.btnWidth)) }

/-- `KEYPAD unknown` (R206). -/
def decKeypadUnknown (out : DecodeOut) : DecodeOut :=
  { out with kind := .keypad, button := .unknown }

/-- `DEC_KEYPAD`: the idle test comes first (R203). -/
def decKeypad (p : Params) (w : Word) (out : DecodeOut) : DecodeOut :=
  if field w p.profile.idleOff Config.idleWidth = 0xffffffff then decKeypadIdle out
  else decKeypadButton p w out

/-- `DEC_OTHER` (R207). -/
def decOther (out : DecodeOut) : DecodeOut := { out with kind := .other }

/-! ### The message (R208) -/

/-- A text if a condition holds. -/
def textIf (c : Bool) (t : Text) : Text := if c then t else []

/-- The LED message. -/
def renderLed (l : Led) : Text :=
  "LED Status ".toList ++ (if l.ready then "Ready, ".toList else "Not Ready, ".toList)
    ++ textIf l.error "Error, ".toList ++ textIf l.bypass "Bypass, ".toList
    ++ textIf l.memory "Memory, ".toList ++ textIf l.armed "Armed, ".toList
    ++ textIf l.program "Program, ".toList

/-- The date and time message. -/
def renderDatetime (d : DateTime) : Text :=
  "Date: 20".toList ++ decText d.yearHi ++ decText d.yearLo ++ ['-'] ++ decText d.month ++ ['-']
    ++ decText d.day ++ [' '] ++ decText d.hour ++ [':'] ++ decText d.minute

/-- `zoneBitmap[z]` (R191). -/
def DecodeOut.zone (out : DecodeOut) (z : Nat) : Bool := out.zoneBitmap.getLsbD (z - 1)

/-- The zones of a group, in rising order. -/
def groupZones (g : Group) : List Nat := (List.range 8).map (fun i => g.base + i)

/-- The list of the active zones of a group. -/
def zoneList (g : Group) (out : DecodeOut) : Text :=
  (((groupZones g).filter out.zone).map (fun z => decText z ++ ", ".toList)).flatten

/-- The zone-group message: the active zones, or ready when there is none. -/
def renderZone (g : Group) (out : DecodeOut) : Text :=
  "Zone".toList ++ decText g.num ++ [' ']
    ++ (if (groupZones g).any out.zone then zoneList g out else "Ready ".toList)

/-- The fixed messages. -/
def renderFixed : FixedKind → Text
  | .programMode => "Panel Program Mode".toList
  | .keypadQuery => "Keypad query".toList
  | .undefined => "Undefined command from panel".toList

/-- The keypad messages. R208 has no row for a keypad record without a button, and no decode makes one: that text is a free
value (log 31). -/
def renderButton : ButtonOut → Text
  | .symbol .idle => "Keypad to panel: idle".toList
  | .symbol (.button b) => "Keypad to panel: button ".toList ++ b.name ++ " pressed".toList
  | .unknown => "Keypad to panel: unknown".toList
  | .none => Config.keypadNoneMessage

/-- `render(out)`: the message text (R208). The wording is the spec's default (log 2). -/
def render (out : DecodeOut) : Text :=
  match out.kind with
  | .led => renderLed out.led
  | .datetime => renderDatetime out.dt
  | .zone g => renderZone g out
  | .fixed k => renderFixed k
  | .keypad => renderButton out.button
  | .other => "Unknown command".toList

/-- `out.message <- render(out)` (R192). -/
def withMessage (out : DecodeOut) : DecodeOut := { out with message := render out }

/-! ### The whole decoder (R192) -/

/-- The zone group a code names, group 1 first (R92). -/
def zoneGroupOf (p : Profile) (c : Nat) : Option Group :=
  [Group.g1, .g2, .g3, .g4].find? fun g => p.codeZone.get g == c

/-- The record of a word before its message, chosen by the code alone (R92, R192). -/
def decodeKind (p : Params) (w : Word) : DecodeOut :=
  let out := startRecord w
  let c := out.code
  if c = p.profile.codeLed then decLed p.profile w out
  else if c = p.profile.codeDatetime then decDatetime p.profile w out
  else
    match zoneGroupOf p.profile c, p.profile.fixed.lookup c with
    | some g, _ => decZone g p.profile w out
    | none, some k => decFixed k out
    | none, none => if c = Config.keypadCode then decKeypad p w out else decOther out

/-- `decode(word)` (R190, R192). -/
def decodeWord (p : Params) (w : Word) : DecodeOut := withMessage (decodeKind p w)

/-- `decode` of a sequence that is not 64 bits long: padded with `BUF_FILL` or cut (R210). -/
def decodeSequence (p : Params) (l : List Bool) : DecodeOut := decodeWord p (wordOfSequence p.bufFill l)

end Sys2Proof.Machine
end

