-- ==== Sys2Proof/Machine/Ops.lean ====
section
/-! DEFINITION. The named operations over registers, pins, queues and the event log that every meaning uses
(spec/00_scope.md R14, spec/41_queues.md, spec/60_exceptions.md R280, R290). The block has no trap: `State.report` is its
form of raising, and nothing returns (R290, R291). -/

namespace Sys2Proof.Machine

/-- What a meaning answers. -/
abbrev Result := Host.Outcome State Fault Refusal

/-! ### Reports -/

/-- `report` of several events in order: each is appended to `evlog` and shown on its strobe; nothing else changes (R280, R32). -/
def State.reportAll (es : List Event) (s : State) : State :=
  { s with evlog := s.evlog ++ es, strobes := s.strobes ++ es }

/-- `report E(info)` (R14, R280). -/
def State.report (e : Event) (s : State) : State := s.reportAll [e]

/-- An event if a condition holds. -/
def Event.onlyIf (c : Bool) (e : Event) : List Event := if c then [e] else []

/-! ### Queues (R170 to R174; the indices by R178) -/

/-- A queue is full when it holds `cap` elements. -/
def Queue.full (cap : Nat) (q : Queue) : Bool := q.items.length == cap

/-- `QPushOverwrite(q, w)`: the new word is always stored; a full queue drops its oldest element. The result says whether
one was dropped (R171, R178). -/
def Queue.pushOverwrite (cap : Nat) (w : Word) (q : Queue) : Queue × Bool :=
  if q.full cap then
    ({ items := q.items.tail ++ [w], wr := (q.wr + 1) % cap, rd := (q.rd + 1) % cap }, true)
  else
    ({ items := q.items ++ [w], wr := (q.wr + 1) % cap, rd := q.rd }, false)

/-- `QPushReject(q, w)`: a full queue is unchanged and the word is lost. The result is true for `ok` (R172, R178). -/
def Queue.pushReject (cap : Nat) (w : Word) (q : Queue) : Queue × Bool :=
  if q.full cap then (q, false)
  else ({ items := q.items ++ [w], wr := (q.wr + 1) % cap, rd := q.rd }, true)

/-- `QPop(q)`: remove and return the oldest element; none stands for `empty` (R173, R178). -/
def Queue.pop (cap : Nat) (q : Queue) : Queue × Option Word :=
  match q.items with
  | [] => (q, none)
  | w :: ws => ({ items := ws, wr := q.wr, rd := (q.rd + 1) % cap }, some w)

/-- `QCount(q)` (R174). -/
def Queue.count (q : Queue) : Nat := q.items.length

/-- The canonical form of a queue's storage: at most `cap` elements, and indices that frame them (R175, R178). -/
def Queue.wf (cap : Nat) (q : Queue) : Bool :=
  decide (q.items.length ≤ cap) && decide (q.rd < cap) && decide (q.wr = (q.rd + q.items.length) % cap)

/-- The only agent that pushes onto a queue (R74). -/
def pusherOf : QueueId → Agent
  | .b2a => .sampler
  | .a2b => .producer

/-- The only agent that pops a queue (R74). -/
def popperOf : QueueId → Agent
  | .b2a => .decoder
  | .a2b => .sampler

/-- The sampler's push onto `b2a`, with its overrun report (R134). -/
def State.pushFrame (which : Fin 2) (w : Word) (s : State) : State :=
  let r := s.b2a.pushOverwrite s.params.capB2a w
  { s with b2a := r.1 }.reportAll (Event.onlyIf r.2 (.b2aOverrun which))

/-- The sampler's pop of `a2b` into `cur_cmd`, idle standing in when the queue is empty (R134). -/
def State.loadCommand (s : State) : State :=
  let r := s.a2b.pop s.params.capA2b
  { s with a2b := r.1, curCmd := r.2.getD (s.params.cmd .idle) }

/-- The command producer's push onto `a2b`: the answer goes to `a2b_ok`, a rejection is reported (R172). -/
def State.pushCommand (w : Word) (s : State) : State :=
  let r := s.a2b.pushReject s.params.capA2b w
  { s with a2b := r.1, ports := { s.ports with a2bOk := r.2 } }.reportAll (Event.onlyIf (!r.2) .a2bFull)

/-! ### Pins -/

/-- `ClkLevel()` for what `PinRead(CLK)` answered (R130). -/
def clkLevel (p : Params) (pin : Level) : Level := if p.clkInverted then pin.flip else pin

/-- `PinWrite(DATA, l)`: the output latch of the data pin (R61). `CLK` is never written. -/
def State.writeData (l : Level) (s : State) : State := { s with dataDrv := l }

/-- `PinConfig(p, d)` (R14, R61). -/
def State.configurePin (p : Pin) (d : Dir) (s : State) : State :=
  match p with
  | .clk => { s with dirClk := d }
  | .data => { s with dirData := d }

/-! ### The frame around one action -/

/-- An action begins: it leaves the agenda, and the strobes of the step before go low (R32, R296). -/
def State.begin (rest : List Action) (s : State) : State := { s with strobes := [], agenda := rest }

end Sys2Proof.Machine
end

