-- ==== Sys2Proof/Machine/Consumers.lean ====
section
/-! DEFINITION. What the agents around the block do: ZoneTracker, StatusStore and its readers, trace, responses, predictor
(spec/44_consumers.md R250 to R266, spec/20_memory.md R80), and the requests of the command producer (spec/30_encoding.md R116). -/

namespace Sys2Proof.Machine

/-! ### ZoneTracker (R252 to R254) -/

/-- One zone's record after a report at time `t` (R252). -/
def ZoneRecord.see (active : Bool) (t : Nat) (r : ZoneRecord) : ZoneRecord :=
  if active then (if r.act > r.deact then r else { r with act := t })
  else if r.deact < r.act then { r with deact := t } else r

/-- `active(z)`: activation after deactivation, a tie being inactive (R254). -/
def ZoneRecord.active (r : ZoneRecord) : Bool := decide (r.act > r.deact)

/-- Whether index `j` (zone j + 1) belongs to a group (R95). -/
def inGroup (g : Group) (j : Nat) : Bool := decide (g.base ≤ j + 1 ∧ j + 1 < g.base + 8)

/-- `ZONETRACK(g, out, T)`: only the eight zones of the group are touched (R252). Zone z stands at bit z - 1 of the bitmap. -/
def zoneTrack (g : Group) (bitmap : BitVec 32) (t : Nat) (zs : Vector ZoneRecord 32) : Vector ZoneRecord 32 :=
  zs.mapIdx fun j r => if inGroup g j then r.see (bitmap.getLsbD j) t else r

/-! ### StatusStore and trace (R251, R257, R258) -/

/-- Steps (4) and (5) of `CONSUME` (R251). -/
def PanelStatus.observe (out : DecodeOut) (t : Nat) (st : PanelStatus) : PanelStatus :=
  match out.kind with
  | .led => { st with obsTime := t, led := out.message }
  | .zone g =>
    { st with obsTime := t, zones := zoneTrack g out.zoneBitmap t st.zones, zone := st.zone.set g out.message }
  | .datetime | .fixed _ | .keypad | .other => { st with obsTime := t }

/-- The eight bytes of a word as the trace shows them, a space before each (R258, R67). -/
def traceBytes (w : Word) : Text := ((List.range 8).map (fun j => ' ' :: hexByte (w.byte j))).flatten

/-- The trace line of a consumed word (R258). -/
def traceLine (idx : Nat) (message : Text) (w : Word) : Text :=
  decText idx ++ [' '] ++ message ++ traceBytes w

/-! ### Readers and the update in progress (R80) -/

/-- The read a reader has in progress. -/
def Reads.progress (r : Reads) : Reader → Option (List PanelStatus)
  | .responder => r.responder
  | .predictor => r.predictor

/-- Begin or end a reader's read. -/
def Reads.set (who : Reader) (o : Option (List PanelStatus)) (r : Reads) : Reads :=
  match who with
  | .responder => { r with responder := o }
  | .predictor => { r with predictor := o }

/-- The older versions of the status that a reader may still meet, newest first: those of its read in progress, else the one side
of the update in progress (R80). -/
def Reads.older (who : Reader) (r : Reads) : List PanelStatus := (r.progress who).getD r.updating.toList

/-- A new update begins on the version `old`; every read in progress may meet both its sides (R80). -/
def Reads.updated (old : PanelStatus) (r : Reads) : Reads :=
  { updating := some old
    responder := r.responder.map (old :: ·)
    predictor := r.predictor.map (old :: ·) }

/-- The update in progress is over (log 20). -/
def Reads.settled (r : Reads) : Reads := { r with updating := none }

/-- An update of StatusStore; it stays in progress until the decoder agent's next step (R257, R80; log 20). -/
def State.setStatus (st : PanelStatus) (s : State) : State := { s with status := st, reads := s.reads.updated s.status }

/-- The version from which a read takes field `i`: `pick` counts back from now, 0 for now. -/
def PanelStatus.version (pick : List Nat) (older : List PanelStatus) (now : PanelStatus) (i : Nat) : PanelStatus :=
  (now :: older).getD (pick.getD i 0) now

/-- A snapshot that takes each field whole from a version of its own (R80): field 0 is `obs_time`, 1 the LED string, 2 to 5 the
zone strings, 6 + 2j and 7 + 2j the two timestamps of zone j + 1. -/
def PanelStatus.mixture (pick : List Nat) (older : List PanelStatus) (now : PanelStatus) : PanelStatus where
  obsTime := (now.version pick older 0).obsTime
  led := (now.version pick older 1).led
  zone :=
    { g1 := (now.version pick older 2).zone.g1
      g2 := (now.version pick older 3).zone.g2
      g3 := (now.version pick older 4).zone.g3
      g4 := (now.version pick older 5).zone.g4 }
  zones := now.zones.mapFinIdx fun j _ h =>
    { act := (now.version pick older (6 + 2 * j)).zones[j].act
      deact := (now.version pick older (7 + 2 * j)).zones[j].deact }

/-- What a reader's read gives it. -/
def State.readOf (who : Reader) (pick : List Nat) (s : State) : PanelStatus :=
  PanelStatus.mixture pick (s.reads.older who) s.status

/-- Whether a reader has a snapshot to take: the responder when only the response of its request is left, the predictor when it
does not wait for its collaborator. -/
def State.canRead (who : Reader) (s : State) : Bool :=
  match who with
  | .responder =>
    match s.requests with
    | { symbols := [], json := _ } :: _ => true
    | _ => false
  | .predictor => s.predWaiting.isNone

/-- A reader begins its read: it may meet the versions there are and those still to come (R80; log 20). -/
def State.readBegin (who : Reader) (s : State) : State :=
  if s.canRead who then { s with reads := s.reads.set who (some (s.reads.older who)) } else s

/-! ### The two host operations (R251, R252) -/

/-- `CONSUME(w)` at wall clock `t` (R251). -/
def State.consume (w : Word) (t : Nat) (s : State) : State :=
  let out := decodeWord s.params w
  { s with
    traceIdx := s.traceIdx + 1
    traceOut := s.traceOut ++ [traceLine (s.traceIdx + 1) out.message w] }.setStatus (s.status.observe out t)

/-- `ZONETRACK` on StatusStore (R252). -/
def State.zonetrack (g : Group) (bitmap : BitVec 32) (t : Nat) (s : State) : State :=
  s.setStatus { s.status with zones := zoneTrack g bitmap t s.status.zones }

/-! ### Responses (R261, R262) -/

/-- The texts of a list with a separator between them. -/
def joinWith (sep : Text) : List Text → Text
  | [] => []
  | [t] => t
  | t :: ts => t ++ sep ++ joinWith sep ts

/-- The plain response: the template of R261 taken literally. -/
def plainResponse (st : PanelStatus) : Text :=
  joinWith ", ".toList [st.led, st.zone.g1, st.zone.g2, st.zone.g3, st.zone.g4] ++ [',']

/-- The opening and closing brace of a JSON object. -/
def braceOpen : Char := Char.ofNat 123
def braceClose : Char := Char.ofNat 125

/-- A list of numbers in JSON. -/
def jsonNumbers (l : List Nat) : Text := ['['] ++ joinWith ", ".toList (l.map decText) ++ [']']

/-- The 32 activation timestamps, zone 1 first. -/
def PanelStatus.zoneAct (st : PanelStatus) : List Nat := st.zones.toList.map ZoneRecord.act

/-- The 32 deactivation timestamps, zone 1 first. -/
def PanelStatus.zoneDeact (st : PanelStatus) : List Nat := st.zones.toList.map ZoneRecord.deact

/-- The `tag` response (R262). -/
def jsonResponse (st : PanelStatus) : Text :=
  [braceOpen] ++ "\"obsTime\": ".toList ++ decText st.obsTime ++ ", \"zoneAct\": ".toList
    ++ jsonNumbers st.zoneAct ++ ", \"zoneDeAct\": ".toList ++ jsonNumbers st.zoneDeact ++ [braceClose]

/-! ### Requests (R116, R259, R260) -/

/-- One push for each symbol, in order, with no other agent's step between (log 30); a rejected push is not retried
(R116, R260). -/
def State.pushSymbols (xs : List Symbol) (s : State) : State :=
  xs.foldl (fun s x => s.pushCommand (encodeSymbol s.params x)) s

/-- The response, read from `snap`; the responder's read is over (R261, R262). -/
def State.respond (json : Bool) (snap : PanelStatus) (s : State) : State :=
  { s with
    reads := s.reads.set .responder none
    ports := { s.ports with
      snapshot := snap
      response := if json then jsonResponse snap else plainResponse snap } }

/-- A whole request with no other agent's step between: its pushes, then the response (R259; log 30). -/
def State.serve (xs : List Symbol) (json : Bool) (s : State) : State := (s.pushSymbols xs).respond json s.status

/-- The responder accepts a request and does nothing for it yet: requests are handled one at a time (R259; log 30). -/
def State.accept (r : Request) (s : State) : State := { s with requests := s.requests ++ [r] }

/-- A request row: the whole request when the responder is free, else it waits its turn (R259; log 30). -/
def State.handle (xs : List Symbol) (json : Bool) (s : State) : State :=
  if s.requests = [] then s.serve xs json else s.accept { symbols := xs, json := json }

/-- One step of the request in progress: its next push, or, with none left, the response, each field read as `pick` says. Any
other agent may step between two of these (R297, R337; log 30). -/
def State.producerStep (pick : List Nat) (s : State) : State :=
  match s.requests with
  | [] => s
  | { symbols := [], json := json } :: rest => { s with requests := rest }.respond json (s.readOf .responder pick)
  | { symbols := x :: xs, json := json } :: rest =>
    { s with requests := { symbols := xs, json := json } :: rest }.pushCommand (encodeSymbol s.params x)

/-- The symbols a request row enqueues (R116). -/
def requestSymbols : Instr → List Symbol
  | .reqDigits ds => ds.map fun d => .button (Button.ofDigit d)
  | .reqStar => [.button .star]
  | .reqPound => [.button .pound]
  | .reqStay => [.button .stay]
  | .reqAway => [.button .away]
  | _ => [.idle]

/-- Whether a request row asks for the JSON form (R116, R262). -/
def requestJson : Instr → Bool
  | .reqTag => true
  | _ => false

/-- What a request row asks of the responder. -/
def Request.ofRow (i : Instr) : Request := { symbols := requestSymbols i, json := requestJson i }

/-! ### The predictor (R263, R264) -/

/-- Whether a text begins somewhere in another. -/
def textIsIn (pat : Text) : Text → Bool
  | [] => pat.isEmpty
  | c :: cs => pat.isPrefixOf (c :: cs) || textIsIn pat cs

/-- Whether a line holds `prediction N: 2` for N in 1 to 8 (R264). -/
def lineTriggers (line : Text) : Bool :=
  (List.range 8).any fun k => textIsIn ("prediction ".toList ++ decText (k + 1) ++ ": 2".toList) line

/-- The 64 timestamps, activations first (R264). -/
def PanelStatus.stamps (st : PanelStatus) : List Nat := st.zoneAct ++ st.zoneDeact

/-- The call of the collaborator on a snapshot (R264). -/
def PredCall.on (utc : Text) (snap : PanelStatus) : PredCall := { utc := utc, obsTime := snap.obsTime, stamps := snap.stamps }

/-- A wake of the predictor up to its call: the snapshot, each field read as `pick` says, is kept, and the collaborator is called
when the timestamps changed. A predictor that waits for its collaborator does not wake (R263; log 19, log 33). -/
def State.predictorCall (pick : List Nat) (utc : Text) (s : State) : State :=
  match s.predWaiting with
  | some _ => s
  | none =>
    let snap := s.readOf .predictor pick
    { s with
      predLast := snap.zones
      predWaiting := if snap.zones = s.predLast then none else some (PredCall.on utc snap)
      reads := s.reads.set .predictor none
      ports := { s.ports with snapshot := snap } }

/-- The call in progress returns: `answer` is the collaborator's output lines, none when it could not be invoked (R264; log 19). -/
def State.predictorReturn (answer : Option (List Text)) (s : State) : State :=
  match s.predWaiting, answer with
  | none, _ => s
  | some _, none => { s with predWaiting := none }.report .predictFail
  | some c, some lines =>
    { s with
      predWaiting := none
      predCalls := s.predCalls ++ [c]
      sideEffects := s.sideEffects + (lines.any lineTriggers).toNat }

/-- A wake of the predictor with no other agent's step before its call returns (R263; log 33). -/
def State.predictorWake (pick : List Nat) (utc : Text) (answer : Option (List Text)) (s : State) : State :=
  match s.predWaiting with
  | some _ => s
  | none => (s.predictorCall pick utc).predictorReturn answer

end Sys2Proof.Machine
end

