-- ==== Sys2Proof/Machine/Flags.lean ====
section
/-! DEFINITION. The conditions the block computes, its level outputs, and the codes and strobes of its events (spec/40_sampler.md R132, R133,
spec/60_exceptions.md R280, R286, R296). The block has no status flags (R32, R33). -/

namespace Sys2Proof.Machine

/-- `BOUNDARY()`: `now - t_mark > T_WINDOW`, strictly (R132). -/
def State.boundary (s : State) : Bool := decide (s.now - s.tMark > Config.tWindow)

/-- The short-frame test, `bitcnt < MIN_BITS` (R133, R141). -/
def State.isShort (s : State) : Bool := decide (s.bitcnt < Config.minBits)

/-- The code of an event (R280). -/
def Event.code : Event → Nat
  | .shortFrame _ => 1
  | .b2aOverrun _ => 2
  | .a2bFull => 3
  | .predictFail => 4

/-- The code of a fatal condition (R286). -/
def Fatal.code : Fatal → Nat
  | .regmap => 8
  | .rtSetup => 9
  | .thread => 10
  | .clock => 11

/-- The fault of a fatal condition (R286). -/
def Fatal.fault : Fatal → Fault
  | .regmap => .regmap
  | .rtSetup => .rtSetup
  | .thread => .thread
  | .clock => .clock

/-- `ev_short` with `ev_short_bits`: the bit count of a short frame reported in the latest step (R296). -/
def State.evShort (s : State) : Option Nat :=
  s.strobes.findSome? fun e => match e with
    | .shortFrame n => some n
    | _ => none

/-- `ev_overrun0` and `ev_overrun1` (R296). -/
def State.evOverrun (which : Fin 2) (s : State) : Bool := s.strobes.contains (.b2aOverrun which)

/-- `b2a_count` and `a2b_count`: level outputs that follow the queue with no strobe (R174, R296). -/
def State.countOut (q : QueueId) (s : State) : Nat :=
  match q with
  | .b2a => s.b2a.count
  | .a2b => s.a2b.count

/-- `data_out`: the level output that is `data_drv` (R296). -/
def State.dataOut (s : State) : Level := s.dataDrv

/-- `ev_a2b_full` (R296). -/
def State.evA2bFull (s : State) : Bool := s.strobes.contains .a2bFull

end Sys2Proof.Machine
end

