-- ==== Sys2Proof/Machine/Sampler.lean ====
section
/-! DEFINITION. BusSampler: one function on states for each step of spec/40_sampler.md (R130 to R142), and the whole tick. -/

namespace Sys2Proof.Machine

/-- `MARK()` (R132). -/
def State.mark (s : State) : State :=
  { s with tMark := if s.params.markEveryEdge then s.now else s.tMark }

/-- `SHORT_FRAME()` (R133). -/
def State.shortFrame (s : State) : State := s.report (.shortFrame s.bitcnt)

/-- `VALID_FRAME()`: push the panel frame, push the keypad frame, load the next command (R134). -/
def State.validFrame (s : State) : State :=
  ((s.pushFrame 0 s.pbuf).pushFrame 1 s.kbuf).loadCommand

/-- `RESET_FRAME()` (R135). -/
def State.resetFrame (s : State) : State :=
  { s with
    bitcnt := 0
    pbuf := fillWord s.params.bufFill
    kbuf := fillWord s.params.bufFill
    tMark := s.now }

/-- The bit `DRIVE` puts on the line: the next one of the command, idle from 64 on (R136). -/
def State.nextBit (s : State) : Bool :=
  if s.bitcnt < Config.frameWidth then s.curCmd.bit s.bitcnt else true

/-- `DRIVE()` (R136). -/
def State.drive (s : State) : State := s.writeData (plevel s.nextBit)

/-- `KSAMPLE()`: `l` is what `PinRead(DATA)` answered; discarded when `bitcnt` is 64 (R137). -/
def State.ksample (l : Level) (s : State) : State :=
  { s with kbuf := if s.bitcnt < Config.frameWidth then s.kbuf.setBit s.bitcnt (lbit l) else s.kbuf }

/-- `RELEASE()` (R139). -/
def State.release (s : State) : State := s.writeData idleLevel

/-- `PSAMPLE()`: `l` is what `PinRead(DATA)` answered; the counter saturates at 64 (R138). -/
def State.psample (l : Level) (s : State) : State :=
  { s with
    pbuf := if s.bitcnt < Config.frameWidth then s.pbuf.setBit s.bitcnt (lbit l) else s.pbuf
    bitcnt := if s.bitcnt < Config.frameWidth then s.bitcnt + 1 else s.bitcnt }

/-- The end of the running frame: the short or the valid branch, then the reset (R141). -/
def State.finalise (s : State) : State :=
  (if s.isShort then s.shortFrame else s.validFrame).resetFrame

/-- `RISE()` with the boundary test answered by `gap` (R141, R143). -/
def State.riseWith (gap : Bool) (s : State) : State :=
  (if gap then s.finalise else s).mark.drive

/-- `RISE()` (R141). -/
def State.rise (s : State) : State := s.riseWith s.boundary

/-- What a poll does on a rising edge, pair `01` (R131). -/
def State.takeRise (s : State) : State :=
  { ({ s with prevClk := .high } : State).rise with phase := .kwait s.params.nK }

/-- What a poll does on a falling edge, pair `10` (R131, R142). -/
def State.takeFall (s : State) : State := { s with prevClk := .low, phase := .pwait Config.nP }

/-- `POLL()` for the clock level `c` that `ClkLevel()` answered (R131). -/
def State.poll (c : Level) (s : State) : State :=
  match s.prevClk, c with
  | .low, .high => s.takeRise
  | .high, .low => s.takeFall
  | .low, .low => s
  | .high, .high => s

/-- `TICK()`: `clk` and `data` are the levels of the two pins in this tick (R140). -/
def State.tick (clk data : Level) (s₀ : State) : State :=
  let s : State := { s₀ with now := s₀.now + 1 }
  match s.phase with
  | .poll => s.poll (clkLevel s.params clk)
  | .kwait n =>
    if n > 1 then { s with phase := .kwait (n - 1) } else { s.ksample data with phase := .hwait Config.nH }
  | .hwait n =>
    if n > 1 then { s with phase := .hwait (n - 1) } else { s.release with phase := .poll }
  | .pwait n =>
    if n > 1 then { s with phase := .pwait (n - 1) } else { s.psample data with phase := .poll }

/-! ### The event-level view (R143) -/

/-- Event (a): a rising edge with the flag `gap`, and the level `lk` the read-back sample returns. -/
def State.eventRise (gap : Bool) (lk : Level) (s : State) : State := ((s.riseWith gap).ksample lk).release

/-- Event (b): a falling edge, and the level `lp` the panel sample returns. -/
def State.eventFall (lp : Level) (s : State) : State := s.psample lp

end Sys2Proof.Machine
end

