-- ==== Sys2Proof/Machine/Agents.lean ====
section
/-! DEFINITION. The steps of the agents that are no row of spec/opcode_table.json: the unscripted tick of the sampler, the
command producer in the steps of a request, the decoder agent, the predictor, the beginning of a read, reset, a fatal condition
(spec/60_exceptions.md R286, R296, R297, spec/44_consumers.md R250, R263, spec/20_memory.md R80, spec/70_reset_and_hazards.md
R320). -/

namespace Sys2Proof.Machine

/-- A tick for which nobody presented the pins: their levels are free values (R41, R64, log 7). -/
def State.freeTick (s : State) : State :=
  { s.tick (Config.freeClk s.pinSeq) (Config.freeData s.pinSeq) with pinSeq := s.pinSeq + 1 }

/-- The decoder agent pops `b2a` and consumes what it gets; an empty queue ends its drain (R250, R173). Its update before this
one is over (log 20). -/
def State.decoderStep (t : Nat) (s : State) : State :=
  let r := s.b2a.pop s.params.capB2a
  let s' : State := { s with b2a := r.1, reads := s.reads.settled, ports := { s.ports with b2aPop := r.2 } }
  match r.2 with
  | none => s'
  | some w => s'.consume w t

/-- `rst`: nothing survives but the parameters, which are wired, and the outside world's own agenda and pins (R320, log 23). -/
def State.applyReset (s : State) : State :=
  { State.resetWith s.params with agenda := s.agenda, pinSeq := s.pinSeq }

/-- An action of the agenda that is no operation of the table. -/
def State.perform (a : Action) (s : State) : Result :=
  match a with
  | .op bytes => .refused (.notAnOperation bytes)
  | .request body => .next (s.accept (Request.ofRow (classifyRequest body)))
  | .producerStep pick => .next (s.producerStep pick)
  | .readBegin who => .next (s.readBegin who)
  | .decoderStep t => .next (s.decoderStep t)
  | .predictorWake pick utc answer => .next (s.predictorWake pick utc answer)
  | .predictorCall pick utc => .next (s.predictorCall pick utc)
  | .predictorReturn answer => .next (s.predictorReturn answer)
  | .rst => .next s.applyReset
  | .fatal f => .fault f.fault

end Sys2Proof.Machine
end

