-- ==== Sys2Proof/Machine/DecodeRows.lean ====
section
/-! DEFINITION. The nineteen busword rows (spec/42_decode.md R192 to R207). Each shows on `dec_out` the record its rule gives, with the
message of R208; the numbers come from the parameters (log 13). -/

namespace Sys2Proof.Machine

/-- Show a record on `dec_out`, with its message (R192). -/
def State.showRecord (out : DecodeOut) (s : State) : State :=
  { s with ports := { s.ports with decOut := withMessage out } }

/-- `DEC_LED` (R193). -/
def execDecLed (w : Word) (s : State) : Result := .next (s.showRecord (decLed s.params.profile w (startRecord w)))

/-- `DEC_DATETIME` (R194). -/
def execDecDatetime (w : Word) (s : State) : Result :=
  .next (s.showRecord (decDatetime s.params.profile w (startRecord w)))

/-- `DEC_ZONE(1, ...)` (R195, R196). -/
def execDecZone1 (w : Word) (s : State) : Result :=
  .next (s.showRecord (decZone .g1 s.params.profile w (startRecord w)))

/-- `DEC_ZONE(2, ...)` (R195, R197). -/
def execDecZone2 (w : Word) (s : State) : Result :=
  .next (s.showRecord (decZone .g2 s.params.profile w (startRecord w)))

/-- `DEC_ZONE(3, ...)` (R195, R198). -/
def execDecZone3 (w : Word) (s : State) : Result :=
  .next (s.showRecord (decZone .g3 s.params.profile w (startRecord w)))

/-- `DEC_ZONE(4, ...)` (R195, R199). -/
def execDecZone4 (w : Word) (s : State) : Result :=
  .next (s.showRecord (decZone .g4 s.params.profile w (startRecord w)))

/-- `DEC_FIXED(PROGRAM_MODE)` (R200). -/
def execDecFixedProgramMode (w : Word) (s : State) : Result :=
  .next (s.showRecord (decFixed .programMode (startRecord w)))

/-- `DEC_FIXED(KEYPAD_QUERY)` (R201). -/
def execDecFixedKeypadQuery (w : Word) (s : State) : Result :=
  .next (s.showRecord (decFixed .keypadQuery (startRecord w)))

/-- `DEC_FIXED(UNDEFINED)`, the row of code 0x39 (R202). -/
def execDecFixedUndefined39 (w : Word) (s : State) : Result :=
  .next (s.showRecord (decFixed .undefined (startRecord w)))

/-- `DEC_FIXED(UNDEFINED)`, the row of code 0x5d (R202). -/
def execDecFixedUndefined5d (w : Word) (s : State) : Result :=
  .next (s.showRecord (decFixed .undefined (startRecord w)))

/-- `DEC_FIXED(UNDEFINED)`, the row of code 0x63 (R202). -/
def execDecFixedUndefined63 (w : Word) (s : State) : Result :=
  .next (s.showRecord (decFixed .undefined (startRecord w)))

/-- `DEC_FIXED(UNDEFINED)`, the row of code 0x64 (R202). -/
def execDecFixedUndefined64 (w : Word) (s : State) : Result :=
  .next (s.showRecord (decFixed .undefined (startRecord w)))

/-- `DEC_FIXED(UNDEFINED)`, the row of code 0x69 (R202). -/
def execDecFixedUndefined69 (w : Word) (s : State) : Result :=
  .next (s.showRecord (decFixed .undefined (startRecord w)))

/-- `DEC_FIXED(UNDEFINED)`, the row of code 0xb1 (R202). -/
def execDecFixedUndefinedB1 (w : Word) (s : State) : Result :=
  .next (s.showRecord (decFixed .undefined (startRecord w)))

/-- `DEC_KEYPAD` (R203). -/
def execDecKeypad (w : Word) (s : State) : Result := .next (s.showRecord (decKeypad s.params w (startRecord w)))

/-- `KEYPAD idle` (R204). -/
def execDecKeypadIdle (w : Word) (s : State) : Result := .next (s.showRecord (decKeypadIdle (startRecord w)))

/-- `KEYPAD button` (R205). -/
def execDecKeypadButton (w : Word) (s : State) : Result :=
  .next (s.showRecord (decKeypadButton s.params w (startRecord w)))

/-- `KEYPAD unknown` (R206). -/
def execDecKeypadUnknown (w : Word) (s : State) : Result := .next (s.showRecord (decKeypadUnknown (startRecord w)))

/-- `DEC_OTHER` (R207). -/
def execDecOther (w : Word) (s : State) : Result := .next (s.showRecord (decOther (startRecord w)))

end Sys2Proof.Machine
end

