-- ==== Sys2Proof/Machine/EncodeRows.lean ====
section
/-! DEFINITION. The fifteen commandword rows and the fifteen button20 rows (spec/43_encode_matcher.md). An ENC row shows `CMDTAB[x]` on
`enc_word`; a MATCH row puts the number its row of the opcode table prints to the matcher, whatever `BTNTAB` holds (R117; log 14). -/

namespace Sys2Proof.Machine

/-- Show `encode(x)` on `enc_word` (R230). -/
def State.showCommand (x : Symbol) (s : State) : State :=
  { s with ports := { s.ports with encWord := encodeSymbol s.params x } }

/-- Show `MATCH(v)` (R233). -/
def State.showMatch (v : Nat) (s : State) : State :=
  { s with ports := { s.ports with matchOut := matchButton s.params v } }

/-- `ENC 0` (R236). -/
def execEnc0 (s : State) : Result := .next (s.showCommand (.button .d0))

/-- `ENC 1` (R237). -/
def execEnc1 (s : State) : Result := .next (s.showCommand (.button .d1))

/-- `ENC 2` (R238). -/
def execEnc2 (s : State) : Result := .next (s.showCommand (.button .d2))

/-- `ENC 3` (R239). -/
def execEnc3 (s : State) : Result := .next (s.showCommand (.button .d3))

/-- `ENC 4` (R240). -/
def execEnc4 (s : State) : Result := .next (s.showCommand (.button .d4))

/-- `ENC 5` (R241). -/
def execEnc5 (s : State) : Result := .next (s.showCommand (.button .d5))

/-- `ENC 6` (R242). -/
def execEnc6 (s : State) : Result := .next (s.showCommand (.button .d6))

/-- `ENC 7` (R243). -/
def execEnc7 (s : State) : Result := .next (s.showCommand (.button .d7))

/-- `ENC 8` (R244). -/
def execEnc8 (s : State) : Result := .next (s.showCommand (.button .d8))

/-- `ENC 9` (R245). -/
def execEnc9 (s : State) : Result := .next (s.showCommand (.button .d9))

/-- `ENC star` (R246). -/
def execEncStar (s : State) : Result := .next (s.showCommand (.button .star))

/-- `ENC pound` (R247). -/
def execEncPound (s : State) : Result := .next (s.showCommand (.button .pound))

/-- `ENC stay` (R248). -/
def execEncStay (s : State) : Result := .next (s.showCommand (.button .stay))

/-- `ENC away` (R249). -/
def execEncAway (s : State) : Result := .next (s.showCommand (.button .away))

/-- `ENC idle` (R231). -/
def execEncIdle (s : State) : Result := .next (s.showCommand .idle)

/-- `MATCH(0x807ff)`, the value of the row of button 0 (R233, R117). -/
def execMatchB0 (s : State) : Result := .next (s.showMatch 0x807ff)

/-- `MATCH(0x82fff)`, the value of the row of button 1 (R233, R117). -/
def execMatchB1 (s : State) : Result := .next (s.showMatch 0x82fff)

/-- `MATCH(0x857ff)`, the value of the row of button 2 (R233, R117). -/
def execMatchB2 (s : State) : Result := .next (s.showMatch 0x857ff)

/-- `MATCH(0x87fff)`, the value of the row of button 3 (R233, R117). -/
def execMatchB3 (s : State) : Result := .next (s.showMatch 0x87fff)

/-- `MATCH(0x88fff)`, the value of the row of button 4 (R233, R117). -/
def execMatchB4 (s : State) : Result := .next (s.showMatch 0x88fff)

/-- `MATCH(0x8b7ff)`, the value of the row of button 5 (R233, R117). -/
def execMatchB5 (s : State) : Result := .next (s.showMatch 0x8b7ff)

/-- `MATCH(0x8dfff)`, the value of the row of button 6 (R233, R117). -/
def execMatchB6 (s : State) : Result := .next (s.showMatch 0x8dfff)

/-- `MATCH(0x8e7ff)`, the value of the row of button 7 (R233, R117). -/
def execMatchB7 (s : State) : Result := .next (s.showMatch 0x8e7ff)

/-- `MATCH(0x917ff)`, the value of the row of button 8 (R233, R117). -/
def execMatchB8 (s : State) : Result := .next (s.showMatch 0x917ff)

/-- `MATCH(0x93fff)`, the value of the row of button 9 (R233, R117). -/
def execMatchB9 (s : State) : Result := .next (s.showMatch 0x93fff)

/-- `MATCH(0x947ff)`, the value of the row of button star (R233, R117). -/
def execMatchStar (s : State) : Result := .next (s.showMatch 0x947ff)

/-- `MATCH(0x96fff)`, the value of the row of button pound (R233, R117). -/
def execMatchPound (s : State) : Result := .next (s.showMatch 0x96fff)

/-- `MATCH(0xd7fff)`, the value of the row of button stay (R233, R117). -/
def execMatchStay (s : State) : Result := .next (s.showMatch 0xd7fff)

/-- `MATCH(0xd8fff)`, the value of the row of button away (R233, R117). -/
def execMatchAway (s : State) : Result := .next (s.showMatch 0xd8fff)

/-- `MATCH` of a value (R233). -/
def execMatchUnknown (v : BitVec 20) (s : State) : Result := .next (s.showMatch v.toNat)

end Sys2Proof.Machine
end

