-- ==== Sys2Proof/Machine/HostOps.lean ====
section
/-! DEFINITION. The two host operations (spec/44_consumers.md R251, R252). -/

namespace Sys2Proof.Machine

/-- `CONSUME(w)` at wall clock `t` (R251). -/
def execConsume (w : Word) (t : Nat) (s : State) : Result := .next (s.consume w t)

/-- `ZONETRACK(g, out, T)` (R252; log 16). -/
def execZonetrack (g : Group) (bitmap : BitVec 32) (t : Nat) (s : State) : Result := .next (s.zonetrack g bitmap t)

end Sys2Proof.Machine
end

