-- ==== Sys2Proof/Machine/PortOps.lean ====
section
/-! DEFINITION. The remaining port operations: pin configuration, the combinational decoder and encoder, and the renderer (spec/42_decode.md
R192, R208, spec/43_encode_matcher.md R230, R232, spec/70_reset_and_hazards.md R322). -/

namespace Sys2Proof.Machine

/-- Show `decode(w)` on `dec_out` (R192). -/
def State.showDecoded (w : Word) (s : State) : State :=
  { s with ports := { s.ports with decOut := decodeWord s.params w } }

/-- Give the record on `dec_out` its message (R208). -/
def State.showRendered (s : State) : State :=
  { s with ports := { s.ports with decOut := withMessage s.ports.decOut } }

/-- `PinConfig(p, d)` (R322, R301, R61). -/
def execPinconfig (p : Pin) (d : Dir) (s : State) : Result := .next (s.configurePin p d)

/-- `decode(word)` (R192). -/
def execDecode (w : Word) (s : State) : Result := .next (s.showDecoded w)

/-- `encode(symbol)` for a 4-bit input (R230, R232). -/
def execEncode (sym : BitVec 4) (s : State) : Result := .next (s.showCommand (Symbol.ofInput sym))

/-- `render(out)` of the record on `dec_out` (R208; log 15). -/
def execRender (s : State) : Result := .next (s.showRendered)

end Sys2Proof.Machine
end

