-- ==== Sys2Proof/Machine/QueueOps.lean ====
section
/-! DEFINITION. The queue operations as ports (spec/41_queues.md R171 to R174), each for the agents that own the end (spec/20_memory.md R74). -/

namespace Sys2Proof.Machine

/-- `b2a_push`: the overrun result is returned to the caller, who reports it; no event of its own (R171). -/
def State.portPushOverwrite (w : Word) (s : State) : State :=
  let r := s.b2a.pushOverwrite s.params.capB2a w
  { s with b2a := r.1, ports := { s.ports with b2aOverrun := r.2 } }

/-- `b2a_pop` or `a2b_pop` with its answer (R173). -/
def State.portPop (q : QueueId) (s : State) : State :=
  match q with
  | .b2a =>
    let r := s.b2a.pop s.params.capB2a
    { s with b2a := r.1, ports := { s.ports with b2aPop := r.2 } }
  | .a2b =>
    let r := s.a2b.pop s.params.capA2b
    { s with a2b := r.1, ports := { s.ports with a2bPop := r.2 } }

/-- `QCount(q)` answers its caller what the level output shows at this step (R174). -/
def State.portCount (q : QueueId) (s : State) : State :=
  match q with
  | .b2a => { s with ports := { s.ports with b2aCount := s.countOut .b2a } }
  | .a2b => { s with ports := { s.ports with a2bCount := s.countOut .a2b } }

/-- `QPushOverwrite(b2a, w)` (R171); the sampler only (R74, R177). -/
def execQpushOverwrite (a : Agent) (w : Word) (s : State) : Result :=
  if a = pusherOf .b2a then .next (s.portPushOverwrite w) else .refused (.notQueueOwner a .b2a)

/-- `QPushReject(a2b, w)` (R172); the command producer only (R74, R177). -/
def execQpushReject (a : Agent) (w : Word) (s : State) : Result :=
  if a = pusherOf .a2b then .next (s.pushCommand w) else .refused (.notQueueOwner a .a2b)

/-- `QPop(q)` (R173); the decoder on `b2a`, the sampler on `a2b` (R74, R177). -/
def execQpop (a : Agent) (q : QueueId) (s : State) : Result :=
  if a = popperOf q then .next (s.portPop q) else .refused (.notQueueOwner a q)

/-- `QCount(q)` (R174). -/
def execQcount (q : QueueId) (s : State) : Result := .next (s.portCount q)

end Sys2Proof.Machine
end

