-- ==== Sys2Proof/Machine/RequestOps.lean ====
section
/-! DEFINITION. The request rows of the command producer (spec/30_encoding.md R115, R116): the pushes, then the response read from StatusStore
(spec/44_consumers.md R259 to R262), with no other agent's step between; a request in progress is finished first (log 30). -/

namespace Sys2Proof.Machine

/-- A body of digits: one push for each, left to right (R116). -/
def execReqDigits (ds : List (Fin 10)) (s : State) : Result :=
  .next (s.handle (ds.map fun d => .button (Button.ofDigit d)) false)

/-- The body `star` (R116). -/
def execReqStar (s : State) : Result := .next (s.handle [.button .star] false)

/-- The body `pound` (R116). -/
def execReqPound (s : State) : Result := .next (s.handle [.button .pound] false)

/-- The body `stay` (R116). -/
def execReqStay (s : State) : Result := .next (s.handle [.button .stay] false)

/-- The body `away` (R116). -/
def execReqAway (s : State) : Result := .next (s.handle [.button .away] false)

/-- The body `idle` (R116). -/
def execReqIdle (s : State) : Result := .next (s.handle [.idle] false)

/-- The body `tag`: idle is pushed, the response is JSON (R116, R262). -/
def execReqTag (s : State) : Result := .next (s.handle [.idle] true)

/-- Any other body falls back to idle (R116). -/
def execReqOther (body : List Byte) (s : State) : Result :=
  .next (s.handle (requestSymbols (.reqOther body)) false)

end Sys2Proof.Machine
end

