-- ==== Sys2Proof/Machine/SamplerOps.lean ====
section
/-! DEFINITION. The clock-pair rows and the sampler's port operations (spec/40_sampler.md). A row that is a step inside another is that
step's pseudocode wherever it is requested (log 9). -/

namespace Sys2Proof.Machine

/-- Clock pair `00`: no event (R114, R131). -/
def execPollNoneLow (s : State) : Result := .next s

/-- Clock pair `01`: the rising edge (R114, R131, R141; log 8). -/
def execRise (s : State) : Result := .next s.takeRise

/-- Clock pair `10`: the falling edge (R114, R131, R142; log 8). -/
def execFall (s : State) : Result := .next s.takeFall

/-- Clock pair `11`: no event (R114, R131). -/
def execPollNoneHigh (s : State) : Result := .next s

/-- `TICK` (R140). -/
def execTick (clk : Level) (data : Level) (s : State) : Result := .next (s.tick clk data)

/-- `POLL` (R131); `clk` is what `PinRead(CLK)` answers (R130). -/
def execPoll (clk : Level) (s : State) : Result := .next (s.poll (clkLevel s.params clk))

/-- `BOUNDARY` and `MARK` (R132). -/
def execBoundaryMark (s : State) : Result := .next { s with ports := { s.ports with boundary := s.boundary } }.mark

/-- `SHORT_FRAME` (R133). -/
def execShortFrame (s : State) : Result := .next s.shortFrame

/-- `VALID_FRAME` (R134). -/
def execValidFrame (s : State) : Result := .next s.validFrame

/-- `RESET_FRAME` (R135). -/
def execResetFrame (s : State) : Result := .next s.resetFrame

/-- `DRIVE` (R136). -/
def execDrive (s : State) : Result := .next s.drive

/-- `KSAMPLE` (R137). -/
def execKsample (data : Level) (s : State) : Result := .next (s.ksample data)

/-- `RELEASE` (R139). -/
def execRelease (s : State) : Result := .next s.release

/-- `PSAMPLE` (R138). -/
def execPsample (data : Level) (s : State) : Result := .next (s.psample data)

end Sys2Proof.Machine
end

