-- ==== Sys2Proof/Machine/Dispatch.lean ====
section
/-! DEFINITION. The dispatch of an operation to its meaning, one arm per constructor of Instr. -/

namespace Sys2Proof.Machine

def exec (i : Instr) (s : State) : Host.Outcome State Fault Refusal :=
  match i with
  | .decLed w => Sys2Proof.Machine.execDecLed w s
  | .decDatetime w => Sys2Proof.Machine.execDecDatetime w s
  | .decZone1 w => Sys2Proof.Machine.execDecZone1 w s
  | .decZone2 w => Sys2Proof.Machine.execDecZone2 w s
  | .decZone3 w => Sys2Proof.Machine.execDecZone3 w s
  | .decZone4 w => Sys2Proof.Machine.execDecZone4 w s
  | .decFixedProgramMode w => Sys2Proof.Machine.execDecFixedProgramMode w s
  | .decFixedKeypadQuery w => Sys2Proof.Machine.execDecFixedKeypadQuery w s
  | .decFixedUndefined39 w => Sys2Proof.Machine.execDecFixedUndefined39 w s
  | .decFixedUndefined5d w => Sys2Proof.Machine.execDecFixedUndefined5d w s
  | .decFixedUndefined63 w => Sys2Proof.Machine.execDecFixedUndefined63 w s
  | .decFixedUndefined64 w => Sys2Proof.Machine.execDecFixedUndefined64 w s
  | .decFixedUndefined69 w => Sys2Proof.Machine.execDecFixedUndefined69 w s
  | .decFixedUndefinedB1 w => Sys2Proof.Machine.execDecFixedUndefinedB1 w s
  | .decKeypad w => Sys2Proof.Machine.execDecKeypad w s
  | .decKeypadIdle w => Sys2Proof.Machine.execDecKeypadIdle w s
  | .decKeypadButton w => Sys2Proof.Machine.execDecKeypadButton w s
  | .decKeypadUnknown w => Sys2Proof.Machine.execDecKeypadUnknown w s
  | .decOther w => Sys2Proof.Machine.execDecOther w s
  | .enc0 => Sys2Proof.Machine.execEnc0 s
  | .enc1 => Sys2Proof.Machine.execEnc1 s
  | .enc2 => Sys2Proof.Machine.execEnc2 s
  | .enc3 => Sys2Proof.Machine.execEnc3 s
  | .enc4 => Sys2Proof.Machine.execEnc4 s
  | .enc5 => Sys2Proof.Machine.execEnc5 s
  | .enc6 => Sys2Proof.Machine.execEnc6 s
  | .enc7 => Sys2Proof.Machine.execEnc7 s
  | .enc8 => Sys2Proof.Machine.execEnc8 s
  | .enc9 => Sys2Proof.Machine.execEnc9 s
  | .encStar => Sys2Proof.Machine.execEncStar s
  | .encPound => Sys2Proof.Machine.execEncPound s
  | .encStay => Sys2Proof.Machine.execEncStay s
  | .encAway => Sys2Proof.Machine.execEncAway s
  | .encIdle => Sys2Proof.Machine.execEncIdle s
  | .matchB0 => Sys2Proof.Machine.execMatchB0 s
  | .matchB1 => Sys2Proof.Machine.execMatchB1 s
  | .matchB2 => Sys2Proof.Machine.execMatchB2 s
  | .matchB3 => Sys2Proof.Machine.execMatchB3 s
  | .matchB4 => Sys2Proof.Machine.execMatchB4 s
  | .matchB5 => Sys2Proof.Machine.execMatchB5 s
  | .matchB6 => Sys2Proof.Machine.execMatchB6 s
  | .matchB7 => Sys2Proof.Machine.execMatchB7 s
  | .matchB8 => Sys2Proof.Machine.execMatchB8 s
  | .matchB9 => Sys2Proof.Machine.execMatchB9 s
  | .matchStar => Sys2Proof.Machine.execMatchStar s
  | .matchPound => Sys2Proof.Machine.execMatchPound s
  | .matchStay => Sys2Proof.Machine.execMatchStay s
  | .matchAway => Sys2Proof.Machine.execMatchAway s
  | .matchUnknown v => Sys2Proof.Machine.execMatchUnknown v s
  | .pollNoneLow => Sys2Proof.Machine.execPollNoneLow s
  | .rise => Sys2Proof.Machine.execRise s
  | .fall => Sys2Proof.Machine.execFall s
  | .pollNoneHigh => Sys2Proof.Machine.execPollNoneHigh s
  | .tick clk data => Sys2Proof.Machine.execTick clk data s
  | .poll clk => Sys2Proof.Machine.execPoll clk s
  | .boundaryMark => Sys2Proof.Machine.execBoundaryMark s
  | .shortFrame => Sys2Proof.Machine.execShortFrame s
  | .validFrame => Sys2Proof.Machine.execValidFrame s
  | .resetFrame => Sys2Proof.Machine.execResetFrame s
  | .drive => Sys2Proof.Machine.execDrive s
  | .ksample data => Sys2Proof.Machine.execKsample data s
  | .release => Sys2Proof.Machine.execRelease s
  | .psample data => Sys2Proof.Machine.execPsample data s
  | .qpushOverwrite a w => Sys2Proof.Machine.execQpushOverwrite a w s
  | .qpushReject a w => Sys2Proof.Machine.execQpushReject a w s
  | .qpop a q => Sys2Proof.Machine.execQpop a q s
  | .qcount q => Sys2Proof.Machine.execQcount q s
  | .pinconfig p d => Sys2Proof.Machine.execPinconfig p d s
  | .decode w => Sys2Proof.Machine.execDecode w s
  | .encode sym => Sys2Proof.Machine.execEncode sym s
  | .render => Sys2Proof.Machine.execRender s
  | .reqDigits ds => Sys2Proof.Machine.execReqDigits ds s
  | .reqStar => Sys2Proof.Machine.execReqStar s
  | .reqPound => Sys2Proof.Machine.execReqPound s
  | .reqStay => Sys2Proof.Machine.execReqStay s
  | .reqAway => Sys2Proof.Machine.execReqAway s
  | .reqIdle => Sys2Proof.Machine.execReqIdle s
  | .reqTag => Sys2Proof.Machine.execReqTag s
  | .reqOther body => Sys2Proof.Machine.execReqOther body s
  | .consume w t => Sys2Proof.Machine.execConsume w t s
  | .zonetrack g bitmap t => Sys2Proof.Machine.execZonetrack g bitmap t s

end Sys2Proof.Machine
end

