-- ==== Sys2Proof/Machine/Step.lean ====
section
/-! DEFINITION. One step of the machine: the next action of the agenda, or the sampler's own tick when there is none
(spec/60_exceptions.md R297, spec/70_reset_and_hazards.md R320; log 4), and where a presented operation is put. -/

namespace Sys2Proof.Machine

/-- One step. -/
def step (s : State) : Host.Outcome State Fault Refusal :=
  match s.agenda with
  | [] => .next (s.begin []).freeTick
  | .op bytes :: rest =>
    match decode bytes with
    | .ok i => exec i (s.begin rest)
    | .error _ => .refused (.notAnOperation bytes)
  | .request body :: rest => (s.begin rest).perform (.request body)
  | .producerStep pick :: rest => (s.begin rest).perform (.producerStep pick)
  | .readBegin who :: rest => (s.begin rest).perform (.readBegin who)
  | .decoderStep t :: rest => (s.begin rest).perform (.decoderStep t)
  | .predictorWake pick utc answer :: rest => (s.begin rest).perform (.predictorWake pick utc answer)
  | .predictorCall pick utc :: rest => (s.begin rest).perform (.predictorCall pick utc)
  | .predictorReturn answer :: rest => (s.begin rest).perform (.predictorReturn answer)
  | .rst :: rest => (s.begin rest).perform .rst
  | .fatal f :: rest => (s.begin rest).perform (.fatal f)

/-- Present a table word as the next thing that happens (log 4, log 6). -/
def State.withFetchWord (s : State) (nbits w : Nat) : State :=
  { s with agenda := .op (tableBytes nbits w) :: s.agenda }

end Sys2Proof.Machine
end

