-- ==== Sys2Proof/Machine/Ring.lean ====
section
/-! DEFINITION. The circular-buffer realisation of a queue with its storage explicit (spec/41_queues.md R178, R179), for
comparison with the queue State holds (R36). -/

namespace Sys2Proof.Machine

/-- The storage of a ring: slots, write index, read index, count (R178). -/
structure Ring where
  slot : List Word
  wr : Nat
  rd : Nat
  n : Nat
  deriving DecidableEq, Repr

/-- A ring after reset; the slot contents are unspecified, so they are an argument (R178). -/
def Ring.afterReset (slots : List Word) : Ring := { slot := slots, wr := 0, rd := 0, n := 0 }

/-- `MemWrite(q, i, w)` (R14). -/
def Ring.memWrite (i : Nat) (w : Word) (r : Ring) : Ring := { r with slot := r.slot.set i w }

/-- `MemRead(q, i)` (R14). -/
def Ring.memRead (i : Nat) (r : Ring) : Word := r.slot.getD i 0#64

/-- `QPushOverwrite` on the ring (R178). -/
def Ring.pushOverwrite (cap : Nat) (w : Word) (r : Ring) : Ring × Bool :=
  let overrun := r.n == cap
  let r' := r.memWrite r.wr w
  ({ r' with
      wr := (r.wr + 1) % cap
      rd := if overrun then (r.rd + 1) % cap else r.rd
      n := if overrun then r.n else r.n + 1 }, overrun)

/-- `QPushReject` on the ring (R178). -/
def Ring.pushReject (cap : Nat) (w : Word) (r : Ring) : Ring × Bool :=
  if r.n == cap then (r, false)
  else ({ r.memWrite r.wr w with wr := (r.wr + 1) % cap, n := r.n + 1 }, true)

/-- `QPop` on the ring (R178). -/
def Ring.pop (cap : Nat) (r : Ring) : Ring × Option Word :=
  if r.n = 0 then (r, none)
  else ({ r with rd := (r.rd + 1) % cap, n := r.n - 1 }, some (r.memRead r.rd))

/-- The abstract sequence of a ring (R178). -/
def Ring.items (cap : Nat) (r : Ring) : List Word :=
  (List.range r.n).map fun j => r.memRead ((r.rd + j) % cap)

/-- The queue a ring stands for. -/
def Ring.toQueue (cap : Nat) (r : Ring) : Queue := { items := r.items cap, wr := r.wr, rd := r.rd }

/-- One call of a queue operation. -/
inductive QueueCall where
  | pushOverwrite (w : Word)
  | pushReject (w : Word)
  | pop
  | count
  deriving DecidableEq, Repr

/-- The answer of a call. -/
inductive QueueAnswer where
  | overrun (b : Bool)
  | ok (b : Bool)
  | popped (w : Option Word)
  | count (n : Nat)
  deriving DecidableEq, Repr

/-- A call on the ring. -/
def Ring.call (cap : Nat) (r : Ring) : QueueCall → Ring × QueueAnswer
  | .pushOverwrite w => ((r.pushOverwrite cap w).1, .overrun (r.pushOverwrite cap w).2)
  | .pushReject w => ((r.pushReject cap w).1, .ok (r.pushReject cap w).2)
  | .pop => ((r.pop cap).1, .popped (r.pop cap).2)
  | .count => (r, .count r.n)

/-- A call on the queue. -/
def Queue.call (cap : Nat) (q : Queue) : QueueCall → Queue × QueueAnswer
  | .pushOverwrite w => ((q.pushOverwrite cap w).1, .overrun (q.pushOverwrite cap w).2)
  | .pushReject w => ((q.pushReject cap w).1, .ok (q.pushReject cap w).2)
  | .pop => ((q.pop cap).1, .popped (q.pop cap).2)
  | .count => (q, .count q.count)

/-- A sequence of calls on the ring, with the answers in order. -/
def Ring.calls (cap : Nat) (r : Ring) : List QueueCall → Ring × List QueueAnswer
  | [] => (r, [])
  | c :: cs =>
    let x := r.call cap c
    let y := x.1.calls cap cs
    (y.1, x.2 :: y.2)

/-- A sequence of calls on the queue, with the answers in order. -/
def Queue.calls (cap : Nat) (q : Queue) : List QueueCall → Queue × List QueueAnswer
  | [] => (q, [])
  | c :: cs =>
    let x := q.call cap c
    let y := x.1.calls cap cs
    (y.1, x.2 :: y.2)

end Sys2Proof.Machine
end

