-- ==== Sys2Proof/Machine/Time.lean ====
section
/-! DEFINITION. The software's representation of an instant as a pair of seconds and nanoseconds, and its tick count
(spec/00_scope.md R15, spec/40_sampler.md R146). State uses the tick count everywhere. -/

namespace Sys2Proof.Machine

/-- Nanoseconds in one second. -/
abbrev nanosPerSecond : Nat := 1000000000

/-- Nanoseconds in one tick of 10 µs. -/
abbrev nanosPerTick : Nat := 10000

/-- A pair (s, ns) (R15). -/
structure Instant where
  s : Nat
  ns : Nat
  deriving DecidableEq, Repr

/-- A pair is normalized when ns is below one second (R15). -/
def Instant.normalized (x : Instant) : Bool := decide (x.ns < nanosPerSecond)

/-- The carry: while `ns` is a second or more, take one second off it (R146). The first argument bounds the rounds. -/
def Instant.carry : Nat → Instant → Instant
  | 0, x => x
  | k + 1, x => if x.ns ≥ nanosPerSecond then Instant.carry k { s := x.s + 1, ns := x.ns - nanosPerSecond } else x

/-- A deadline moved on by `d` nanoseconds (R15, R146). -/
def Instant.advance (d : Nat) (x : Instant) : Instant :=
  Instant.carry (x.ns + d) { s := x.s, ns := x.ns + d }

/-- The instant in nanoseconds. -/
def Instant.nanos (x : Instant) : Nat := x.s * nanosPerSecond + x.ns

/-- `now` for a pair counted from reset (R15). -/
def Instant.ticks (x : Instant) : Nat := x.nanos / nanosPerTick

end Sys2Proof.Machine
end

