-- ==== Sys2Proof/Safety.lean ====
section
/-! DEFINITION. The terms in which claims speak: runs of several operations, the invariants of spec/40_sampler.md R144 and
spec/41_queues.md R175, and which operations an agent issues by itself (spec/60_exceptions.md R297). -/

namespace Sys2Proof.Machine

/-! ### Runs -/

/-- Several operations one after the other, stopping at the first that answers no next state. -/
def execAll : List Instr → State → Result
  | [], s => .next s
  | i :: is, s =>
    match exec i s with
    | .next t => execAll is t
    | .fault f => .fault f
    | .refused r => .refused r

/-- Several steps, stopping at the first that answers no next state. -/
def stepAll : Nat → State → Result
  | 0, s => .next s
  | n + 1, s =>
    match step s with
    | .next t => stepAll n t
    | .fault f => .fault f
    | .refused r => .refused r

/-- Ticks with the levels of the clock and the data pin of each. -/
def tickOps (pins : List (Level × Level)) : List Instr := pins.map fun l => .tick l.1 l.2

/-- One bit cell as requests, without the waits (R143): a rising edge whose read-back is the first level, a falling edge whose
panel sample is the second. -/
def cellOps (l : Level × Level) : List Instr := [.rise, .ksample l.1, .release, .fall, .psample l.2]

/-- Bit cells in order. -/
def cellsOps (ls : List (Level × Level)) : List Instr := ls.flatMap cellOps

/-- The last `n` elements of a list, or all of it when it is shorter. -/
def lastN {α : Type} (n : Nat) (l : List α) : List α := l.drop (l.length - n)

/-! ### Rows by what they stand for -/

/-- Whether the idle-test field of a word is all ones, position by position (R98, R204). -/
def idleBits (p : Params) (w : Word) : Prop := ∀ k, k < 32 → w.bit (p.profile.idleOff + k) = true

/-- The number in the button field of a word (R98). -/
def buttonField (p : Params) (w : Word) : Nat := field w p.profile.btnOff 20

/-- The row of a zone group (R196 to R199). -/
def zoneRow : Group → Word → Instr
  | .g1, w => .decZone1 w
  | .g2, w => .decZone2 w
  | .g3, w => .decZone3 w
  | .g4, w => .decZone4 w

/-- The rows of the fixed messages: the row on a word, its kind and its literal message (R200 to R202). -/
def fixedRows (w : Word) : List (Instr × FixedKind × Text) :=
  [(.decFixedProgramMode w, .programMode, "Panel Program Mode".toList),
   (.decFixedKeypadQuery w, .keypadQuery, "Keypad query".toList),
   (.decFixedUndefined39 w, .undefined, "Undefined command from panel".toList),
   (.decFixedUndefined5d w, .undefined, "Undefined command from panel".toList),
   (.decFixedUndefined63 w, .undefined, "Undefined command from panel".toList),
   (.decFixedUndefined64 w, .undefined, "Undefined command from panel".toList),
   (.decFixedUndefined69 w, .undefined, "Undefined command from panel".toList),
   (.decFixedUndefinedB1 w, .undefined, "Undefined command from panel".toList)]

/-- The nineteen busword rows on a word (R192). -/
def busRows (w : Word) : List Instr :=
  [.decLed w, .decDatetime w, .decZone1 w, .decZone2 w, .decZone3 w, .decZone4 w, .decFixedProgramMode w,
   .decFixedKeypadQuery w, .decFixedUndefined39 w, .decFixedUndefined5d w, .decFixedUndefined63 w, .decFixedUndefined64 w,
   .decFixedUndefined69 w, .decFixedUndefinedB1 w, .decKeypad w, .decKeypadIdle w, .decKeypadButton w, .decKeypadUnknown w,
   .decOther w]

/-- The row that encodes a symbol (R231, R236 to R249). -/
def encRow : Symbol → Instr
  | .button .d0 => .enc0 | .button .d1 => .enc1 | .button .d2 => .enc2 | .button .d3 => .enc3 | .button .d4 => .enc4
  | .button .d5 => .enc5 | .button .d6 => .enc6 | .button .d7 => .enc7 | .button .d8 => .enc8 | .button .d9 => .enc9
  | .button .star => .encStar | .button .pound => .encPound | .button .stay => .encStay | .button .away => .encAway
  | .idle => .encIdle

/-- The row that matches a button (R233). -/
def matchRow : Button → Instr
  | .d0 => .matchB0 | .d1 => .matchB1 | .d2 => .matchB2 | .d3 => .matchB3 | .d4 => .matchB4
  | .d5 => .matchB5 | .d6 => .matchB6 | .d7 => .matchB7 | .d8 => .matchB8 | .d9 => .matchB9
  | .star => .matchStar | .pound => .matchPound | .stay => .matchStay | .away => .matchAway

/-- The request rows whose body is no digits: the row and the one symbol it enqueues (R116). -/
def nameRows (body : List Byte) : List (Instr × Symbol) :=
  [(.reqStar, .button .star), (.reqPound, .button .pound), (.reqStay, .button .stay), (.reqAway, .button .away),
   (.reqIdle, .idle), (.reqTag, .idle), (.reqOther body, .idle)]

/-- The number that the opcode table prints in a button's row (R117, R112). -/
def matchNumber (b : Button) : BitVec 20 := BitVec.ofNat 20 defaultBtnTab[b.num]

/-! ### Torn reads -/

/-- Whether a snapshot takes each field whole from one of the versions (R80). -/
def PanelStatus.mixes (vs : List PanelStatus) (snap : PanelStatus) : Prop :=
  snap.obsTime ∈ vs.map PanelStatus.obsTime ∧ snap.led ∈ vs.map PanelStatus.led ∧
    (∀ g : Group, snap.zone.get g ∈ vs.map (·.zone.get g)) ∧
    ∀ j : Fin 32, snap.zones[j].act ∈ vs.map (·.zones[j].act) ∧ snap.zones[j].deact ∈ vs.map (·.zones[j].deact)

/-! ### Who issues what -/

/-- The rows that are steps inside the sampler's tick, and pin configuration, which is for boot only (R42, R177, R322). -/
def Instr.isInner : Instr → Bool
  | .pollNoneLow | .rise | .fall | .pollNoneHigh | .poll _ | .boundaryMark | .shortFrame | .validFrame | .resetFrame => true
  | .drive | .ksample _ | .release | .psample _ | .qpushOverwrite _ _ | .pinconfig _ _ => true
  | .qpop a _ => a == .sampler
  | .decLed _ | .decDatetime _ | .decZone1 _ | .decZone2 _ | .decZone3 _ | .decZone4 _ => false
  | .decFixedProgramMode _ | .decFixedKeypadQuery _ | .decFixedUndefined39 _ | .decFixedUndefined5d _ => false
  | .decFixedUndefined63 _ | .decFixedUndefined64 _ | .decFixedUndefined69 _ | .decFixedUndefinedB1 _ => false
  | .decKeypad _ | .decKeypadIdle _ | .decKeypadButton _ | .decKeypadUnknown _ | .decOther _ => false
  | .enc0 | .enc1 | .enc2 | .enc3 | .enc4 | .enc5 | .enc6 | .enc7 | .enc8 | .enc9 => false
  | .encStar | .encPound | .encStay | .encAway | .encIdle => false
  | .matchB0 | .matchB1 | .matchB2 | .matchB3 | .matchB4 | .matchB5 | .matchB6 | .matchB7 => false
  | .matchB8 | .matchB9 | .matchStar | .matchPound | .matchStay | .matchAway | .matchUnknown _ => false
  | .tick _ _ | .qpushReject _ _ | .qcount _ | .decode _ | .encode _ | .render => false
  | .reqDigits _ | .reqStar | .reqPound | .reqStay | .reqAway | .reqIdle | .reqTag | .reqOther _ => false
  | .consume _ _ | .zonetrack _ _ _ => false

/-- The eight request rows (R115, R116). -/
def Instr.isRequest : Instr → Bool
  | .reqDigits _ | .reqStar | .reqPound | .reqStay | .reqAway | .reqIdle | .reqTag | .reqOther _ => true
  | .decLed _ | .decDatetime _ | .decZone1 _ | .decZone2 _ | .decZone3 _ | .decZone4 _ => false
  | .decFixedProgramMode _ | .decFixedKeypadQuery _ | .decFixedUndefined39 _ | .decFixedUndefined5d _ => false
  | .decFixedUndefined63 _ | .decFixedUndefined64 _ | .decFixedUndefined69 _ | .decFixedUndefinedB1 _ => false
  | .decKeypad _ | .decKeypadIdle _ | .decKeypadButton _ | .decKeypadUnknown _ | .decOther _ => false
  | .enc0 | .enc1 | .enc2 | .enc3 | .enc4 | .enc5 | .enc6 | .enc7 | .enc8 | .enc9 => false
  | .encStar | .encPound | .encStay | .encAway | .encIdle => false
  | .matchB0 | .matchB1 | .matchB2 | .matchB3 | .matchB4 | .matchB5 | .matchB6 | .matchB7 => false
  | .matchB8 | .matchB9 | .matchStar | .matchPound | .matchStay | .matchAway | .matchUnknown _ => false
  | .pollNoneLow | .rise | .fall | .pollNoneHigh | .poll _ | .boundaryMark | .shortFrame | .validFrame | .resetFrame => false
  | .drive | .ksample _ | .release | .psample _ | .tick _ _ | .qpushOverwrite _ _ | .qpushReject _ _ | .qpop _ _ => false
  | .qcount _ | .pinconfig _ _ | .decode _ | .encode _ | .render | .consume _ _ | .zonetrack _ _ _ => false

/-- Whether an action is an agent's own: no row that is a step inside the tick, and no pin configuration. -/
def Action.isAgents : Action → Bool
  | .op bytes =>
    match decode bytes with
    | .ok i => !Instr.isInner i
    | .error _ => true
  | .request _ | .producerStep _ | .readBegin _ | .decoderStep _ => true
  | .predictorWake _ _ _ | .predictorCall _ _ | .predictorReturn _ | .rst | .fatal _ => true

/-! ### Invariants -/

/-- The storage of both queues is in its canonical form, and the parameters are well formed (R175, R9). -/
def State.storageOk (s : State) : Bool :=
  s.params.wf && s.b2a.wf s.params.capB2a && s.a2b.wf s.params.capA2b

/-- R144 (1) to (4), less the position `bitcnt` of `kbuf`: true whatever operation is requested. -/
structure State.BufferInv (s : State) : Prop where
  bitcnt_le : s.bitcnt ≤ 64
  pbuf_fill : ∀ p, s.bitcnt ≤ p → p < 64 → s.pbuf.bit p = s.params.bufFill
  kbuf_fill : ∀ p, s.bitcnt < p → p < 64 → s.kbuf.bit p = s.params.bufFill
  mark_le : s.tMark ≤ s.now

/-- A phase inside the bounds of R21. -/
def Phase.inRange (p : Params) : Phase → Bool
  | .poll => true
  | .kwait n => decide (1 ≤ n ∧ n ≤ p.nK)
  | .hwait n => decide (1 ≤ n ∧ n ≤ Config.nH)
  | .pwait n => decide (1 ≤ n ∧ n ≤ Config.nP)

/-- Whether the read-back sample of the running bit cell is still to come. -/
def State.beforeReadBack (s : State) : Bool :=
  match s.phase with
  | .kwait _ => true
  | .poll => s.prevClk == .low
  | .hwait _ => false
  | .pwait _ => false

/-- The sampler between its steps: R21's ranges, R144 (3) at position `bitcnt`, R144 (5), the clock level that goes with each
wait, and the pin directions (R30). -/
structure State.SequenceInv (s : State) : Prop where
  phase_range : s.phase.inRange s.params = true
  kbuf_at : s.beforeReadBack = true → s.bitcnt < 64 → s.kbuf.bit s.bitcnt = s.params.bufFill
  released : (s.phase = .poll ∨ ∃ n, s.phase = .pwait n) → s.dataDrv = .low
  clk_high : (∃ n, s.phase = .kwait n ∨ s.phase = .hwait n) → s.prevClk = .high
  clk_low : (∃ n, s.phase = .pwait n) → s.prevClk = .low
  dirs : s.dirClk = .input ∧ s.dirData = .bidir

end Sys2Proof.Machine
end

