-- ==== Sys2Proof/Certificates/Slice0/Obligations.lean ====
section
/-! DEFINITION. The statements for the provers, from the numbered rules of spec/. OBLIGATIONS.json lists them. A frame is written
`t = { s with f := t.f }`: every field of the state but those named is unchanged. -/

open Sys2Proof Sys2Proof.Machine

/-! ### Fields and the busword rows -/

/-- R13, R67, R68: `field` is the sum R13 gives, the whole word is its number, and two fields that start together share their
leading bits. The bit order is decision D8. R13 defines `field` for n at least 1 only: that a field of no bits (n = 0 or m = 0 here)
is 0, the sum of no terms, is the model's choice (log 32). -/
def Obligations.FieldIsTheNumberOfItsBits : Prop :=
  ∀ (w : Word) (off n : Nat), off + n ≤ 64 →
    field w off n = ∑ k ∈ Finset.range n, (w.bit (off + k)).toNat * 2 ^ (n - 1 - k) ∧
    field w 0 64 = w.toNat ∧
    ∀ m, m ≤ n → field w off m = field w off n / 2 ^ (n - m)

/-- R193: the row LED copies six bits of the word; no other bit but those of the code is read, so the two unused ones are
ignored; with Ready set and Armed clear the message holds `Ready,` and not `Armed,`. Frame: `dec_out` alone is written. -/
def Obligations.DecLedCopiesSixBits : Prop :=
  ∀ (w : Word) (s : State), ∃ t, exec (.decLed w) s = .next t ∧
    t = { s with ports := { s.ports with decOut := t.ports.decOut } } ∧
    t.ports.decOut.kind = .led ∧
    t.ports.decOut.led.ready = w.bit s.params.profile.ledReady ∧
    t.ports.decOut.led.error = w.bit s.params.profile.ledError ∧
    t.ports.decOut.led.bypass = w.bit s.params.profile.ledBypass ∧
    t.ports.decOut.led.memory = w.bit s.params.profile.ledMemory ∧
    t.ports.decOut.led.armed = w.bit s.params.profile.ledArmed ∧
    t.ports.decOut.led.program = w.bit s.params.profile.ledProgram ∧
    (w.bit s.params.profile.ledReady = true → w.bit s.params.profile.ledArmed = false →
      textIsIn "Ready,".toList t.ports.decOut.message = true ∧
      textIsIn "Armed,".toList t.ports.decOut.message = false) ∧
    ∀ v : Word, field v 0 8 = field w 0 8 →
      (∀ p ∈ s.params.profile.ledPositions, v.bit p = w.bit p) → exec (.decLed v) s = .next t

/-- R194: the row DATETIME takes the six numbers by `field`, unchecked. Frame: `dec_out` alone is written. -/
def Obligations.DecDatetimeTakesSixFields : Prop :=
  ∀ (w : Word) (s : State), ∃ t, exec (.decDatetime w) s = .next t ∧
    t = { s with ports := { s.ports with decOut := t.ports.decOut } } ∧
    t.ports.decOut.kind = .datetime ∧
    t.ports.decOut.dt.yearHi = field w s.params.profile.dtYearHi.off s.params.profile.dtYearHi.width ∧
    t.ports.decOut.dt.yearLo = field w s.params.profile.dtYearLo.off s.params.profile.dtYearLo.width ∧
    t.ports.decOut.dt.month = field w s.params.profile.dtMonth.off s.params.profile.dtMonth.width ∧
    t.ports.decOut.dt.day = field w s.params.profile.dtDay.off s.params.profile.dtDay.width ∧
    t.ports.decOut.dt.hour = field w s.params.profile.dtHour.off s.params.profile.dtHour.width ∧
    t.ports.decOut.dt.minute = field w s.params.profile.dtMinute.off s.params.profile.dtMinute.width

/-- R95: in the row of zone group g, bit i of the 8-bit field at the zone offset (i = 0 the least significant) is zone
8*(g-1) + 1 + i, which stands at bit 8*(g-1) + i of the model's bitmap. Frame: `dec_out` alone is written. -/
def Obligations.DecZoneRowsMapBitsToZones : Prop :=
  ∀ (g : Group) (w : Word) (s : State), ∃ t, exec (zoneRow g w) s = .next t ∧
    t = { s with ports := { s.ports with decOut := t.ports.decOut } } ∧
    t.ports.decOut.kind = .zone g ∧
    ∀ i, i < 8 → t.ports.decOut.zoneBitmap.getLsbD (8 * (g.num - 1) + i)
      = (field w s.params.profile.zoneOff 8).testBit i

/-- Each of the eight fixed rows gives its kind and its literal message, and the payload is not read. The wording is the model's:
the spec's default (R208, decision D12, log 2); so is that a row does so on every word (log 13). Frame: `dec_out` alone. -/
def Obligations.DecFixedRowsGiveTheirMessage : Prop :=
  ∀ (w : Word) (s : State),
    (∀ x ∈ fixedRows w, ∃ t, exec x.1 s = .next t ∧
      t = { s with ports := { s.ports with decOut := t.ports.decOut } } ∧
      t.ports.decOut.kind = .fixed x.2.1 ∧ t.ports.decOut.message = x.2.2) ∧
    ∀ (v : Word) (k : Nat), field v 0 8 = field w 0 8 →
      ((fixedRows v)[k]?.map fun x => exec x.1 s) = ((fixedRows w)[k]?.map fun x => exec x.1 s)

/-- R203: the idle test comes first; otherwise the button is the one whose row of `BTNTAB` the 20-bit field equals, or unknown
when no row does. The premise is R106. Frame: `dec_out` alone is written. -/
def Obligations.DecKeypadTestsIdleFirst : Prop :=
  ∀ (w : Word) (s : State), s.params.tablesWf = true → ∃ t, exec (.decKeypad w) s = .next t ∧
    t = { s with ports := { s.ports with decOut := t.ports.decOut } } ∧
    t.ports.decOut.kind = .keypad ∧
    (idleBits s.params w → t.ports.decOut.button = .symbol .idle) ∧
    (¬ idleBits s.params w →
      (∀ b, t.ports.decOut.button = .symbol (.button b) ↔ buttonField s.params w = s.params.btn b) ∧
      (t.ports.decOut.button = .unknown ↔ ∀ b, buttonField s.params w ≠ s.params.btn b))

/-- The three keypad rows, each with its button and message, and the keypad kind as a whole is the row whose condition the word
meets. The wording is the model's: the spec's default (R208, decision D12, log 2); so is that the idle and the unknown row do so on
every word (log 13). Frame: `dec_out` alone is written. -/
def Obligations.KeypadRowsGiveTheirButton : Prop :=
  ∀ (w : Word) (s : State), s.params.tablesWf = true →
    (∃ t, exec (.decKeypadIdle w) s = .next t ∧
      t = { s with ports := { s.ports with decOut := t.ports.decOut } } ∧ t.ports.decOut.kind = .keypad ∧
      t.ports.decOut.button = .symbol .idle ∧ t.ports.decOut.message = "Keypad to panel: idle".toList ∧
      (idleBits s.params w → exec (.decKeypad w) s = .next t)) ∧
    (∀ b, buttonField s.params w = s.params.btn b →
      ∃ t, exec (.decKeypadButton w) s = .next t ∧
        t = { s with ports := { s.ports with decOut := t.ports.decOut } } ∧ t.ports.decOut.kind = .keypad ∧
        t.ports.decOut.button = .symbol (.button b) ∧
        t.ports.decOut.message = "Keypad to panel: button ".toList ++ b.name ++ " pressed".toList ∧
        (¬ idleBits s.params w → exec (.decKeypad w) s = .next t)) ∧
    (∃ t, exec (.decKeypadUnknown w) s = .next t ∧
      t = { s with ports := { s.ports with decOut := t.ports.decOut } } ∧ t.ports.decOut.kind = .keypad ∧
      t.ports.decOut.button = .unknown ∧ t.ports.decOut.message = "Keypad to panel: unknown".toList ∧
      (¬ idleBits s.params w → (∀ b, buttonField s.params w ≠ s.params.btn b) → exec (.decKeypad w) s = .next t))

/-- The row of any other code gives the generic message, the code is returned and the payload is not read. The wording is the
model's: the spec's default (R208, decision D12, log 2); so is that the row does so on every word (log 13). Frame: `dec_out` alone
is written. -/
def Obligations.DecOtherReturnsTheCode : Prop :=
  ∀ (w : Word) (s : State), ∃ t, exec (.decOther w) s = .next t ∧
    t = { s with ports := { s.ports with decOut := t.ports.decOut } } ∧
    t.ports.decOut.kind = .other ∧ t.ports.decOut.code = field w 0 8 ∧
    t.ports.decOut.message = "Unknown command".toList ∧
    ∀ v : Word, field v 0 8 = field w 0 8 → exec (.decOther v) s = .next t

/-- R191, R195 (decision D11): a busword row leaves every member that is not its kind's at 0 or none, a zone row leaves the zones
of other groups at 0, the code is positions 0 to 7, and the message is the rendering of the record (R192). -/
def Obligations.BuswordRowsLeaveOtherMembersNeutral : Prop :=
  ∀ (w : Word) (s t : State), ∀ i ∈ busRows w, exec i s = .next t →
    t.ports.decOut.code = field w 0 8 ∧
    (t.ports.decOut.kind ≠ .led → t.ports.decOut.led
      = { ready := false, error := false, bypass := false, memory := false, armed := false, program := false }) ∧
    (t.ports.decOut.kind ≠ .datetime → t.ports.decOut.dt
      = { yearHi := 0, yearLo := 0, month := 0, day := 0, hour := 0, minute := 0 }) ∧
    ((∀ g, t.ports.decOut.kind ≠ .zone g) → t.ports.decOut.zoneBitmap = 0#32) ∧
    (∀ g, t.ports.decOut.kind = .zone g → ∀ j, j < 32 → ¬ (8 * (g.num - 1) ≤ j ∧ j < 8 * g.num) →
      t.ports.decOut.zoneBitmap.getLsbD j = false) ∧
    (t.ports.decOut.kind ≠ .keypad → t.ports.decOut.button = .none) ∧
    exec .render t = .next t

/-- R192 with R92: `decode` does what the row of the word's code does, for any well-formed profile (R103). -/
def Obligations.DecodeDispatchesOnTheCode : Prop :=
  ∀ (w : Word) (s : State), s.params.profile.wf = true →
    (∃ t, exec (.decode w) s = .next t ∧ t = { s with ports := { s.ports with decOut := t.ports.decOut } }) ∧
    (field w 0 8 = s.params.profile.codeLed → exec (.decode w) s = exec (.decLed w) s) ∧
    (field w 0 8 = s.params.profile.codeDatetime → exec (.decode w) s = exec (.decDatetime w) s) ∧
    (∀ g, field w 0 8 = s.params.profile.codeZone.get g → exec (.decode w) s = exec (zoneRow g w) s) ∧
    (∀ x ∈ fixedRows w, (field w 0 8, x.2.1) ∈ s.params.profile.fixed → exec (.decode w) s = exec x.1 s) ∧
    (field w 0 8 = 0xff → exec (.decode w) s = exec (.decKeypad w) s) ∧
    (field w 0 8 ≠ s.params.profile.codeLed → field w 0 8 ≠ s.params.profile.codeDatetime →
      (∀ g, field w 0 8 ≠ s.params.profile.codeZone.get g) → (∀ k, (field w 0 8, k) ∉ s.params.profile.fixed) →
      field w 0 8 ≠ 0xff → exec (.decode w) s = exec (.decOther w) s)

/-- R38: what the codec answers depends on its input and the constant tables alone, and it always answers. -/
def Obligations.CodecAnswersDependOnInputAndTables : Prop :=
  ∀ (w : Word) (v : BitVec 4) (n : BitVec 20) (s s' : State), s.params = s'.params →
    (∃ t t', exec (.decode w) s = .next t ∧ exec (.decode w) s' = .next t' ∧ t.ports.decOut = t'.ports.decOut) ∧
    (∃ t t', exec (.encode v) s = .next t ∧ exec (.encode v) s' = .next t' ∧ t.ports.encWord = t'.ports.encWord) ∧
    (∃ t t', exec (.matchUnknown n) s = .next t ∧ exec (.matchUnknown n) s' = .next t' ∧
      t.ports.matchOut = t'.ports.matchOut)

/-- R208 (decision D12): the texts of the default rendering, written out; only the message of the record on `dec_out` is
written. The wording is the spec's default (log 2), the record is the one on `dec_out` (log 15). -/
def Obligations.RenderWritesTheDefaultTexts : Prop :=
  ∀ (s : State), ∃ t, exec .render s = .next t ∧
    t = { s with ports := { s.ports with decOut := { s.ports.decOut with message := t.ports.decOut.message } } } ∧
    (s.ports.decOut.kind = .led → t.ports.decOut.message
      = ["LED Status ".toList, if s.ports.decOut.led.ready then "Ready, ".toList else "Not Ready, ".toList,
         if s.ports.decOut.led.error then "Error, ".toList else [],
         if s.ports.decOut.led.bypass then "Bypass, ".toList else [],
         if s.ports.decOut.led.memory then "Memory, ".toList else [],
         if s.ports.decOut.led.armed then "Armed, ".toList else [],
         if s.ports.decOut.led.program then "Program, ".toList else []].flatten) ∧
    (s.ports.decOut.kind = .datetime → t.ports.decOut.message
      = ["Date: 20".toList, decText s.ports.decOut.dt.yearHi, decText s.ports.decOut.dt.yearLo, "-".toList,
         decText s.ports.decOut.dt.month, "-".toList, decText s.ports.decOut.dt.day, " ".toList,
         decText s.ports.decOut.dt.hour, ":".toList, decText s.ports.decOut.dt.minute].flatten) ∧
    (∀ g, s.ports.decOut.kind = .zone g → t.ports.decOut.message
      = "Zone".toList ++ decText g.num ++ " ".toList ++
        (if ∀ i, i < 8 → s.ports.decOut.zoneBitmap.getLsbD (8 * (g.num - 1) + i) = false then "Ready ".toList
         else ((List.range 8).map fun i =>
           if s.ports.decOut.zoneBitmap.getLsbD (8 * (g.num - 1) + i)
           then decText (8 * (g.num - 1) + i + 1) ++ ", ".toList else []).flatten)) ∧
    (s.ports.decOut.kind = .fixed .programMode → t.ports.decOut.message = "Panel Program Mode".toList) ∧
    (s.ports.decOut.kind = .fixed .keypadQuery → t.ports.decOut.message = "Keypad query".toList) ∧
    (s.ports.decOut.kind = .fixed .undefined → t.ports.decOut.message = "Undefined command from panel".toList) ∧
    (s.ports.decOut.kind = .keypad → s.ports.decOut.button = .symbol .idle →
      t.ports.decOut.message = "Keypad to panel: idle".toList) ∧
    (∀ b, s.ports.decOut.kind = .keypad → s.ports.decOut.button = .symbol (.button b) →
      t.ports.decOut.message = "Keypad to panel: button ".toList ++ b.name ++ " pressed".toList) ∧
    (s.ports.decOut.kind = .keypad → s.ports.decOut.button = .unknown →
      t.ports.decOut.message = "Keypad to panel: unknown".toList) ∧
    (s.ports.decOut.kind = .other → t.ports.decOut.message = "Unknown command".toList)

/-! ### The encoder and the matcher -/

/-- R230: `encode(x)` is the row of `CMDTAB` for x, for each of the fifteen symbols. Frame: `enc_word` alone is written. -/
def Obligations.EncodeRowsLookUpTheTable : Prop :=
  ∀ (x : Symbol) (s : State),
    exec (encRow x) s = .next { s with ports := { s.ports with encWord := s.params.cmdTab[x.num] } }

/-- R232 (decision D25): the 4-bit symbol input selects symbols 0 to 14 by number, and 15 the row of idle. -/
def Obligations.EncodeInputSelectsTheSymbol : Prop :=
  ∀ (v : BitVec 4) (s : State),
    (∀ x : Symbol, v.toNat = x.num.val → exec (.encode v) s = exec (encRow x) s) ∧
    (v.toNat = 15 → exec (.encode v) s = exec .encIdle s)

/-- R233: the matcher answers b exactly when the value presented equals b's row of `BTNTAB`, and unknown exactly when no row
equals it; the row of a button presents the number that the opcode table prints in it (R117), whatever `BTNTAB` holds. That a
row presents that number is the model's reading (log 14). The premise is R106. Frame: the matcher's answer alone is written. -/
def Obligations.MatchIsExactEquality : Prop :=
  ∀ (s : State), s.params.tablesWf = true →
    (∀ v : BitVec 20, ∃ t, exec (.matchUnknown v) s = .next t ∧
      t = { s with ports := { s.ports with matchOut := t.ports.matchOut } } ∧
      (∀ b, t.ports.matchOut = some b ↔ v.toNat = s.params.btn b) ∧
      (t.ports.matchOut = none ↔ ∀ b, v.toNat ≠ s.params.btn b)) ∧
    ∀ b, exec (matchRow b) s = exec (.matchUnknown (matchNumber b)) s ∧
      (∃ t, exec (matchRow b) s = .next t ∧ t = { s with ports := { s.ports with matchOut := t.ports.matchOut } } ∧
        (∀ b', t.ports.matchOut = some b' ↔ (matchNumber b).toNat = s.params.btn b') ∧
        (t.ports.matchOut = none ↔ ∀ b', (matchNumber b).toNat ≠ s.params.btn b')) ∧
      (s.params.btnTab = defaultBtnTab →
        exec (matchRow b) s = .next { s with ports := { s.ports with matchOut := some b } })

/-- R108: every symbol survives being encoded and decoded, through the code 0xff. The premise is R103 and R106. -/
def Obligations.EncodeThenDecodeGivesTheSymbol : Prop :=
  ∀ (x : Symbol) (s : State), s.params.wf = true → ∃ t u, exec (encRow x) s = .next t ∧
    exec (.decode t.ports.encWord) t = .next u ∧ u.ports.decOut.code = 0xff ∧ u.ports.decOut.kind = .keypad ∧
    u.ports.decOut.button = .symbol x

/-! ### The sampler -/

/-- R131: a poll that finds the clock high after low is the rising edge, low after high the falling edge, and any other poll
changes nothing; each edge moves `prev_clk` and begins its wait, at the falling edge of 12 ticks (decision D20). That each
clock-pair row, on its own pair, is what the poll does is the model's reading (log 8). -/
def Obligations.PollTakesTheEdges : Prop :=
  ∀ (c : Level) (s : State),
    ((if s.params.clkInverted then c.flip else c) = s.prevClk → exec (.poll c) s = .next s) ∧
    ((if s.params.clkInverted then c.flip else c) = .low → s.prevClk = .high →
      exec (.poll c) s = .next { s with prevClk := .low, phase := .pwait 12 }) ∧
    ((if s.params.clkInverted then c.flip else c) = .high → s.prevClk = .low →
      ∃ t, exec (.poll c) s = .next t ∧ exec .rise s = .next t ∧ t.prevClk = .high ∧ t.phase = .kwait s.params.nK) ∧
    (s.prevClk = .low → exec .pollNoneLow s = .next s) ∧
    (s.prevClk = .high → exec .pollNoneHigh s = .next s) ∧
    (s.prevClk = .high → exec .fall s = .next { s with prevClk := .low, phase := .pwait 12 })

/-- R141: the order of the steps at a rising edge. That the row RISE also sets `prev_clk` and `phase`, whatever they held, is the
model's reading (log 8), as are the steps requested one by one (log 9) and that the answer of BOUNDARY shows on a port only when
BOUNDARY_MARK is requested (log 10). -/
def Obligations.RiseTakesItsStepsInOrder : Prop :=
  ∀ (s : State), ∃ t,
    execAll ((if s.now > s.tMark + 250 then [if s.bitcnt < 20 then .shortFrame else .validFrame, .resetFrame] else []) ++
        [.boundaryMark, .drive]) { s with prevClk := .high } = .next t ∧
    exec .rise s = .next { t with phase := .kwait s.params.nK, ports := s.ports }

/-- R132 (decisions D4, D18): the boundary test is strict, and the mark moves only under `MARK_EVERY_EDGE`. -/
def Obligations.BoundaryIsStrictlyPastTheWindow : Prop :=
  ∀ (s : State), ∃ t, exec .boundaryMark s = .next t ∧
    t = { s with tMark := t.tMark, ports := { s.ports with boundary := t.ports.boundary } } ∧
    (t.ports.boundary = true ↔ s.tMark + 251 ≤ s.now) ∧
    (s.params.markEveryEdge = true → t.tMark = s.now) ∧ (s.params.markEveryEdge = false → t.tMark = s.tMark)

/-- R133: a short frame reports the bit count, and nothing is pushed, popped or loaded; at a rising edge past the window this
branch is taken below 20 bits and never from 20 on. -/
def Obligations.ShortFrameKeepsTheCommand : Prop :=
  ∀ (s : State),
    exec .shortFrame s = .next { s with
      evlog := s.evlog ++ [.shortFrame s.bitcnt], strobes := s.strobes ++ [.shortFrame s.bitcnt] } ∧
    ∃ t, exec .rise s = .next t ∧
      (s.now > s.tMark + 250 → s.bitcnt < 20 →
        t.evlog = s.evlog ++ [.shortFrame s.bitcnt] ∧ t.b2a = s.b2a ∧ t.a2b = s.a2b ∧ t.curCmd = s.curCmd) ∧
      (s.bitcnt ≥ 20 → ∀ n, .shortFrame n ∉ t.evlog.drop s.evlog.length)

/-- R134 (decisions D19, D21), R288: the panel frame then the keypad frame are pushed, each dropping the oldest element and
reporting it when `b2a` is full, then the oldest queued command is loaded, or idle when there is none. -/
def Obligations.ValidFramePushesTwiceAndLoadsOnce : Prop :=
  ∀ (s : State), 1 ≤ s.params.capB2a → s.b2a.items.length ≤ s.params.capB2a → ∃ t, exec .validFrame s = .next t ∧
    t = { s with b2a := t.b2a, a2b := t.a2b, curCmd := t.curCmd, evlog := t.evlog, strobes := t.strobes } ∧
    t.b2a.items = lastN s.params.capB2a (s.b2a.items ++ [s.pbuf, s.kbuf]) ∧
    t.a2b.items = s.a2b.items.tail ∧
    t.curCmd = s.a2b.items.head?.getD (s.params.cmd .idle) ∧
    t.evlog = s.evlog ++ (if s.b2a.items.length = s.params.capB2a then [.b2aOverrun 0] else [])
      ++ (if s.b2a.items.length + 1 ≥ s.params.capB2a then [.b2aOverrun 1] else [])

/-- R135 (decision D6): the counter and both buffers are reset, every position to `BUF_FILL`, and the mark is set. -/
def Obligations.ResetFrameClearsTheFrame : Prop :=
  ∀ (s : State), ∃ t, exec .resetFrame s = .next t ∧
    t = { s with bitcnt := 0, pbuf := t.pbuf, kbuf := t.kbuf, tMark := s.now } ∧
    ∀ p, p < 64 → t.pbuf.bit p = s.params.bufFill ∧ t.kbuf.bit p = s.params.bufFill

/-- R62: the inversion, on every path: `LOW` is 1 and `HIGH` is 0 in the read-back sample, in the panel sample and in the drive,
at every position of a frame. -/
def Obligations.InversionHoldsOnEveryPath : Prop :=
  ∀ (l : Level) (s : State), s.bitcnt < 64 →
    (∃ t, exec (.ksample l) s = .next t ∧ (t.kbuf.bit s.bitcnt = true ↔ l = .low)) ∧
    (∃ t, exec (.psample l) s = .next t ∧ (t.pbuf.bit s.bitcnt = true ↔ l = .low)) ∧
    (∃ t, exec .drive s = .next t ∧ (t.dataDrv = .low ↔ s.curCmd.bit s.bitcnt = true))

/-- R136, R139 (decisions D3, D5): the drive puts the next bit on the line, idle when there is none; the release puts it at
`LOW`. Frame: `data_drv` alone is written. -/
def Obligations.DriveAndReleaseWriteTheLatch : Prop :=
  ∀ (s : State),
    exec .drive s = .next { s with
      dataDrv := if s.bitcnt < 64 ∧ s.curCmd.bit s.bitcnt = false then .high else .low } ∧
    exec .release s = .next { s with dataDrv := .low }

/-- R137, R138 (decisions D5, D20): a sample writes the position `bitcnt` of its buffer and no other, the panel sample counts it,
and at 64 both are thrown away. Frame: the read-back writes `kbuf` alone, the panel sample `pbuf` and `bitcnt`. -/
def Obligations.SamplesStoreAtTheBitCount : Prop :=
  ∀ (l : Level) (s : State), s.bitcnt ≤ 64 →
    (∃ t, exec (.ksample l) s = .next t ∧ t = { s with kbuf := t.kbuf } ∧
      ∀ p, p < 64 → t.kbuf.bit p = if p = s.bitcnt then decide (l = .low) else s.kbuf.bit p) ∧
    (∃ t, exec (.psample l) s = .next t ∧ t = { s with pbuf := t.pbuf, bitcnt := min (s.bitcnt + 1) 64 } ∧
      ∀ p, p < 64 → t.pbuf.bit p = if p = s.bitcnt then decide (l = .low) else s.pbuf.bit p)

/-- R140 (decisions D1, D20): a tick moves `now` on by one and does what `phase` says: the poll, or one count of a wait, or the
step at the end of the wait. It always has a next state. That the step at the end of a wait is what its row does when it is requested
is the model's reading (log 9). -/
def Obligations.TickDoesWhatThePhaseSays : Prop :=
  ∀ (c d : Level) (s : State),
    (∃ t, exec (.tick c d) s = .next t ∧ t.now = s.now + 1) ∧
    (s.phase = .poll → exec (.tick c d) s = exec (.poll c) { s with now := s.now + 1 }) ∧
    (∀ n, s.phase = .kwait (n + 2) → exec (.tick c d) s = .next { s with now := s.now + 1, phase := .kwait (n + 1) }) ∧
    (∀ n, s.phase = .hwait (n + 2) → exec (.tick c d) s = .next { s with now := s.now + 1, phase := .hwait (n + 1) }) ∧
    (∀ n, s.phase = .pwait (n + 2) → exec (.tick c d) s = .next { s with now := s.now + 1, phase := .pwait (n + 1) }) ∧
    (s.phase = .kwait 1 → ∃ t, exec (.ksample d) { s with now := s.now + 1 } = .next t ∧
      exec (.tick c d) s = .next { t with phase := .hwait 22 }) ∧
    (s.phase = .hwait 1 → ∃ t, exec .release { s with now := s.now + 1 } = .next t ∧
      exec (.tick c d) s = .next { t with phase := .poll }) ∧
    (s.phase = .pwait 1 → ∃ t, exec (.psample d) { s with now := s.now + 1 } = .next t ∧
      exec (.tick c d) s = .next { t with phase := .poll })

/-- R140, R143 (decision D20): the ticks from a poll that takes a rising edge to the release, whatever the pins show meanwhile but
for the read-back: `RISE`, the read-back sample `N_K` ticks later, the release `N_H` = 22 ticks after it, and the poll again. That
these steps are what the rows RISE, KSAMPLE and RELEASE do when they are requested is the model's reading (log 8, log 9). -/
def Obligations.RisingEdgeRunsItsWholeHandler : Prop :=
  ∀ (c lk : Level) (pins₁ pins₂ : List (Level × Level)) (d c' : Level) (s : State),
    s.phase = .poll → s.prevClk = .low → (if s.params.clkInverted then c.flip else c) = .high →
    1 ≤ s.params.nK → pins₁.length = s.params.nK - 1 → pins₂.length = 22 →
    ∃ t, execAll [.rise, .ksample lk, .release] { s with now := s.now + 1 } = .next t ∧
      execAll (tickOps ((c, d) :: pins₁ ++ (c', lk) :: pins₂)) s
        = .next { t with now := s.now + (s.params.nK + 23), phase := .poll }

/-- R142: the whole falling-edge handler: the poll that takes the edge, a wait of `N_P` ticks, the panel sample in the last of them;
no finalisation, no drive and no queue operation. That `N_P` is 12 is the spec's own choice (R9, decision D20); that the sample is
what the row PSAMPLE does when it is requested before the ticks, in the poll phase, is the model's reading (log 9). -/
def Obligations.FallingEdgeRunsItsWholeHandler : Prop :=
  ∀ (c lp : Level) (pins : List (Level × Level)) (d c' : Level) (s : State),
    s.phase = .poll → s.prevClk = .high → (if s.params.clkInverted then c.flip else c) = .low → pins.length = 11 →
    ∃ t, exec (.psample lp) s = .next t ∧
      execAll (tickOps ((c, d) :: pins ++ [(c', lp)])) s
        = .next { t with now := s.now + 13, prevClk := .low, phase := .poll }

/-- R145, R65 in the event view of R143, with time standing still: the cells are the rows requested one after the other, which is
the model's reading of a row outside the tick (log 8, log 9), and `now` does not move. Bit cells inside the window assemble the
frame: after n cells from an empty frame the first min(n, 64) positions of
the two buffers hold the samples in order and the rest `BUF_FILL`, the counter is min(n, 64), no queue and no command moved, and
the next rising edge drives the bit of the command at that count. -/
def Obligations.BitCellsAssembleTheFrame : Prop :=
  ∀ (ls : List (Level × Level)) (s : State),
    s.now ≤ s.tMark + 250 → s.tMark ≤ s.now → s.bitcnt = 0 →
    (∀ p, p < 64 → s.pbuf.bit p = s.params.bufFill ∧ s.kbuf.bit p = s.params.bufFill) →
    ∃ t, execAll (cellsOps ls) s = .next t ∧
      t.bitcnt = min ls.length 64 ∧
      (∀ p, p < 64 → t.kbuf.bit p = (ls[p]?.map fun l => decide (l.1 = .low)).getD s.params.bufFill) ∧
      (∀ p, p < 64 → t.pbuf.bit p = (ls[p]?.map fun l => decide (l.2 = .low)).getD s.params.bufFill) ∧
      t.b2a = s.b2a ∧ t.a2b = s.a2b ∧ t.curCmd = s.curCmd ∧ t.evlog = s.evlog ∧ t.now = s.now ∧
      ∃ u, exec .rise t = .next u ∧
        u.dataDrv = if ls.length < 64 ∧ s.curCmd.bit ls.length = false then .high else .low

/-! ### The queues -/

/-- R171 (decision D21): the new word is always stored; a full queue drops its oldest element and the result says so; no event of
its own. Frame: `b2a` and the result alone are written. -/
def Obligations.OverwritingPushDropsTheOldest : Prop :=
  ∀ (w : Word) (s : State), 1 ≤ s.params.capB2a → s.b2a.items.length ≤ s.params.capB2a →
    ∃ t, exec (.qpushOverwrite .sampler w) s = .next t ∧
      t = { s with b2a := t.b2a, ports := { s.ports with b2aOverrun := t.ports.b2aOverrun } } ∧
      t.b2a.items = lastN s.params.capB2a (s.b2a.items ++ [w]) ∧
      (t.ports.b2aOverrun = true ↔ s.b2a.items.length = s.params.capB2a)

/-- R172: a push onto a full queue is rejected, reported and changes no element; else the word is appended. Frame: `a2b`, the
answer on `a2b_ok` and the report alone are written. -/
def Obligations.RejectingPushKeepsWhatIsQueued : Prop :=
  ∀ (w : Word) (s : State),
    (s.a2b.items.length = s.params.capA2b → exec (.qpushReject .producer w) s
      = .next { s with evlog := s.evlog ++ [.a2bFull], strobes := s.strobes ++ [.a2bFull],
                       ports := { s.ports with a2bOk := false } }) ∧
    (s.a2b.items.length ≠ s.params.capA2b → ∃ t, exec (.qpushReject .producer w) s = .next t ∧
      t = { s with a2b := t.a2b, ports := { s.ports with a2bOk := true } } ∧ t.a2b.items = s.a2b.items ++ [w])

/-- R173: a pop removes and returns the oldest element, and of an empty queue it returns empty and changes no queue. Frame: the
queue and the answer alone are written. -/
def Obligations.PopTakesTheOldest : Prop :=
  ∀ (s : State),
    (∃ t, exec (.qpop .decoder .b2a) s = .next t ∧
      t = { s with b2a := t.b2a, ports := { s.ports with b2aPop := t.ports.b2aPop } } ∧
      t.ports.b2aPop = s.b2a.items.head? ∧ t.b2a.items = s.b2a.items.tail ∧ (s.b2a.items = [] → t.b2a = s.b2a)) ∧
    (∃ t, exec (.qpop .sampler .a2b) s = .next t ∧
      t = { s with a2b := t.a2b, ports := { s.ports with a2bPop := t.ports.a2bPop } } ∧
      t.ports.a2bPop = s.a2b.items.head? ∧ t.a2b.items = s.a2b.items.tail ∧ (s.a2b.items = [] → t.a2b = s.a2b))

/-- R174: the count is the number of elements, never above the capacity, as QCOUNT answers it and as the level output shows it.
Frame: the answer alone is written. -/
def Obligations.CountIsTheOccupancy : Prop :=
  ∀ (s : State), s.storageOk = true →
    exec (.qcount .b2a) s = .next { s with ports := { s.ports with b2aCount := s.b2a.items.length } } ∧
    exec (.qcount .a2b) s = .next { s with ports := { s.ports with a2bCount := s.a2b.items.length } } ∧
    s.countOut .b2a = s.b2a.items.length ∧ s.countOut .a2b = s.a2b.items.length ∧
    s.b2a.items.length ≤ s.params.capB2a ∧ s.a2b.items.length ≤ s.params.capA2b

/-- R74: exactly the four (agent, queue, end) pairs are served; any other agent is refused. -/
def Obligations.OnlyOwnersUseAQueueEnd : Prop :=
  ∀ (a : Agent) (w : Word) (s : State),
    ((∃ t, exec (.qpushOverwrite a w) s = .next t) ↔ a = .sampler) ∧
    ((∃ t, exec (.qpop a .b2a) s = .next t) ↔ a = .decoder) ∧
    ((∃ t, exec (.qpushReject a w) s = .next t) ↔ a = .producer) ∧
    ((∃ t, exec (.qpop a .a2b) s = .next t) ↔ a = .sampler) ∧
    (a ≠ .sampler → exec (.qpushOverwrite a w) s = .refused (.notQueueOwner a .b2a)) ∧
    (a ≠ .decoder → exec (.qpop a .b2a) s = .refused (.notQueueOwner a .b2a)) ∧
    (a ≠ .producer → exec (.qpushReject a w) s = .refused (.notQueueOwner a .a2b)) ∧
    (a ≠ .sampler → exec (.qpop a .a2b) s = .refused (.notQueueOwner a .a2b))

/-- R176: after any number of overwriting pushes onto an empty queue, the queue holds exactly the last ones that fit, in order,
and the latest push said `overrun` exactly when it was beyond the capacity. -/
def Obligations.OverwriteLaw : Prop :=
  ∀ (ws : List Word) (w : Word) (s : State), 1 ≤ s.params.capB2a → s.b2a.items = [] →
    ∃ t, execAll ((ws ++ [w]).map (.qpushOverwrite .sampler)) s = .next t ∧
      t.b2a.items = lastN s.params.capB2a (ws ++ [w]) ∧
      (t.ports.b2aOverrun = true ↔ s.params.capB2a ≤ ws.length)

/-- R36, R178: the circular buffer and the sequence answer every sequence of calls alike, whatever the slots held at reset, and
end up standing for the same queue. -/
def Obligations.RingAnswersAsTheSequence : Prop :=
  ∀ (cap : Nat) (slots : List Word) (cs : List QueueCall), 1 ≤ cap → slots.length = cap →
    ((Ring.afterReset slots).calls cap cs).2 = (Queue.empty.calls cap cs).2 ∧
    ((Ring.afterReset slots).calls cap cs).1.toQueue cap = (Queue.empty.calls cap cs).1

/-! ### Pins -/

/-- R61 (decision D16): `PinConfig` sets the direction of the pin it names and nothing else. -/
def Obligations.PinconfigSetsOneDirection : Prop :=
  ∀ (d : Dir) (s : State),
    exec (.pinconfig .clk d) s = .next { s with dirClk := d } ∧
    exec (.pinconfig .data d) s = .next { s with dirData := d }

/-! ### Requests and the host -/

/-- R115, R116 (decision D26): the recognized bodies are the names and one to four digits; every other line is the fallback row.
That a line ends in the one byte 0x0a, with nothing else taken off, and the byte before a line are the model's (log 21, log 5). -/
def Obligations.RequestBodiesAreRecognized : Prop :=
  decode (lineBytes bodyStar) = .ok .reqStar ∧ decode (lineBytes bodyPound) = .ok .reqPound ∧
  decode (lineBytes bodyStay) = .ok .reqStay ∧ decode (lineBytes bodyAway) = .ok .reqAway ∧
  decode (lineBytes bodyIdle) = .ok .reqIdle ∧ decode (lineBytes bodyTag) = .ok .reqTag ∧
  (∀ ds : List (Fin 10), 1 ≤ ds.length → ds.length ≤ 4 → decode (lineBytes (ds.map digitByte)) = .ok (.reqDigits ds)) ∧
  ∀ body : List Byte, lineEnd ∉ body → body ∉ [bodyStar, bodyPound, bodyStay, bodyAway, bodyIdle, bodyTag] →
    (∀ ds : List (Fin 10), 1 ≤ ds.length → ds.length ≤ 4 → body ≠ ds.map digitByte) →
    decode (lineBytes body) = .ok (.reqOther body)

/-- R116, R260 (decision D26), R259, R337: with the responder free, a digit body pushes one command for each digit in order, every
other row one command; what does not fit is rejected, reported and lost, and nothing that was queued moves. With a request in
progress the row waits. A request presented in steps makes each push as a `QPushReject` of its own, and with nothing between its
steps and the status read at once it ends as the row does. That a row is the whole request with nothing between is the model's
choice (log 30), and so is that the response ends the responder's read (log 20). -/
def Obligations.RequestRowsPushInOrder : Prop :=
  ∀ (s : State), s.a2b.items.length ≤ s.params.capA2b →
    (s.requests = [] →
      (∀ ds : List (Fin 10), ∃ t, exec (.reqDigits ds) s = .next t ∧
        t = { s with a2b := t.a2b, evlog := t.evlog, strobes := t.strobes, ports := t.ports,
                     reads := { s.reads with responder := none } } ∧
        t.a2b.items = (s.a2b.items ++ ds.map fun d => s.params.cmd (.button (Button.ofDigit d))).take s.params.capA2b ∧
        t.evlog = s.evlog ++ List.replicate (s.a2b.items.length + ds.length - s.params.capA2b) .a2bFull) ∧
      ∀ body : List Byte, ∀ x ∈ nameRows body, ∃ t, exec x.1 s = .next t ∧
        t = { s with a2b := t.a2b, evlog := t.evlog, strobes := t.strobes, ports := t.ports,
                     reads := { s.reads with responder := none } } ∧
        t.a2b.items = (s.a2b.items ++ [s.params.cmd x.2]).take s.params.capA2b ∧
        t.evlog = s.evlog ++ List.replicate (s.a2b.items.length + 1 - s.params.capA2b) .a2bFull) ∧
    (s.requests ≠ [] →
      (∀ ds : List (Fin 10), exec (.reqDigits ds) s = .next { s with requests := s.requests ++
        [{ symbols := ds.map fun d => .button (Button.ofDigit d), json := false }] }) ∧
      ∀ body : List Byte, ∀ x ∈ nameRows body, exec x.1 s = .next { s with requests := s.requests ++
        [{ symbols := [x.2], json := decide (x.1 = .reqTag) }] }) ∧
    (∀ x xs j rs pick rest, s.requests = { symbols := x :: xs, json := j } :: rs → s.agenda = .producerStep pick :: rest →
      (∃ t, step s = .next t) ∧ step s = exec (.qpushReject .producer (s.params.cmd x))
        { s with strobes := [], agenda := rest, requests := { symbols := xs, json := j } :: rs }) ∧
    ∀ body i k rest, decode (lineBytes body) = .ok i →
      ((∃ ds, i = .reqDigits ds ∧ k = ds.length) ∨ (i ∈ (nameRows body).map Prod.fst ∧ k = 1)) → s.requests = [] →
      s.agenda = .request body :: List.replicate (k + 1) (.producerStep []) ++ rest →
      ∃ t, exec i { s with strobes := [], agenda := rest } = .next t ∧ stepAll (k + 2) s = .next { t with strobes := [] }

/-- R261 (decision D28): the plain response of every request but `tag`, as a row and as the last step of a request: the five status
strings as the responder reads them, a row those of that moment. The steps of a request are the model's presentation (log 30), and
what a read may meet is that of R80 (log 20). -/
def Obligations.PlainResponseListsTheStrings : Prop :=
  ∀ (s : State) (line : PanelStatus → Text), (∀ st, line st = List.intercalate ", ".toList
      [st.led, st.zone.g1, st.zone.g2, st.zone.g3, st.zone.g4] ++ ",".toList) →
    (∀ i t, (∃ ds, i = .reqDigits ds) ∨ (∃ body, i ∈ (nameRows body).map Prod.fst ∧ i ≠ .reqTag) → s.requests = [] →
      exec i s = .next t → t.ports.snapshot = s.status ∧ t.ports.response = line s.status) ∧
    ∀ pick rs rest, s.requests = { symbols := [], json := false } :: rs → s.agenda = .producerStep pick :: rest →
      ∃ snap : PanelStatus, snap.mixes (s.status :: s.reads.older .responder) ∧ (pick = [] → snap = s.status) ∧
        step s = .next { s with strobes := [], agenda := rest, requests := rs, reads := { s.reads with responder := none },
                                ports := { s.ports with snapshot := snap, response := line snap } }

/-- R262: the `tag` response, as a row and as the last step of a request: `obs_time`, then the 32 activation timestamps, then the
32 deactivation timestamps, zone 1 first, as the responder reads them, a row those of that moment. The steps of a request are the
model's presentation (log 30), and what a read may meet is that of R80 (log 20). -/
def Obligations.TagResponseIsTheJsonObject : Prop :=
  ∀ (s : State) (object : PanelStatus → Text), (∀ st, object st =
      [Char.ofNat 0x7b] ++ "\"obsTime\": ".toList ++ Nat.toDigits 10 st.obsTime ++ ", \"zoneAct\": [".toList ++
        List.intercalate ", ".toList ((List.finRange 32).map fun j => Nat.toDigits 10 (st.zones[j].act)) ++
      "], \"zoneDeAct\": [".toList ++
        List.intercalate ", ".toList ((List.finRange 32).map fun j => Nat.toDigits 10 (st.zones[j].deact)) ++
      "]".toList ++ [Char.ofNat 0x7d]) →
    (s.requests = [] →
      ∃ t, exec .reqTag s = .next t ∧ t.ports.snapshot = s.status ∧ t.ports.response = object s.status) ∧
    ∀ pick rs rest, s.requests = { symbols := [], json := true } :: rs → s.agenda = .producerStep pick :: rest →
      ∃ snap : PanelStatus, snap.mixes (s.status :: s.reads.older .responder) ∧ (pick = [] → snap = s.status) ∧
        step s = .next { s with strobes := [], agenda := rest, requests := rs, reads := { s.reads with responder := none },
                                ports := { s.ports with snapshot := snap, response := object snap } }

/-- R251, R257, R258 (decisions D23, D27): consuming a word numbers and traces it, always moves `obs_time`, and moves the LED
string, or one group's string and timestamps, only for a word of that kind. What a reader may still meet of the status before it
is the model's holder (log 20). -/
def Obligations.ConsumeUpdatesOnlyTheMatchedStatus : Prop :=
  ∀ (w : Word) (T : Nat) (s : State), ∃ t u, exec (.consume w T) s = .next t ∧ exec (.decode w) s = .next u ∧
    t = { s with status := t.status, traceIdx := s.traceIdx + 1, traceOut := t.traceOut,
                 reads := s.reads.updated s.status } ∧
    t.traceOut = s.traceOut ++ [Nat.toDigits 10 (s.traceIdx + 1) ++ " ".toList ++ u.ports.decOut.message ++
      ((List.range 8).map fun j => [' ', Nat.digitChar (field w (8 * j) 4), Nat.digitChar (field w (8 * j + 4) 4)]).flatten] ∧
    t.status.obsTime = T ∧
    t.status.led = (if u.ports.decOut.kind = .led then u.ports.decOut.message else s.status.led) ∧
    (∀ g, t.status.zone.get g
      = if u.ports.decOut.kind = .zone g then u.ports.decOut.message else s.status.zone.get g) ∧
    ((∀ g, u.ports.decOut.kind ≠ .zone g) → t.status.zones = s.status.zones) ∧
    ∀ g, u.ports.decOut.kind = .zone g →
      ∃ v, exec (.zonetrack g u.ports.decOut.zoneBitmap T) s = .next v ∧ t.status.zones = v.status.zones

/-- R252: for each zone of the group, a report of activity sets activation unless it is ahead, a report of inactivity sets
deactivation if it is behind; no other zone is touched. Zone z is index z - 1. Frame: the timestamps alone are written, and the
model's holder of what a reader may still meet of the status before it (log 20). -/
def Obligations.ZonetrackTouchesOnlyTheGroup : Prop :=
  ∀ (g : Group) (m : BitVec 32) (T : Nat) (s : State), ∃ t, exec (.zonetrack g m T) s = .next t ∧
    t = { s with status := { s.status with zones := t.status.zones }, reads := s.reads.updated s.status } ∧
    ∀ j : Fin 32,
      (¬ (8 * (g.num - 1) ≤ j.val ∧ j.val < 8 * g.num) → t.status.zones[j] = s.status.zones[j]) ∧
      (8 * (g.num - 1) ≤ j.val ∧ j.val < 8 * g.num →
        (m.getLsbD j = true → t.status.zones[j].deact = s.status.zones[j].deact ∧
          t.status.zones[j].act
            = if s.status.zones[j].act > s.status.zones[j].deact then s.status.zones[j].act else T) ∧
        (m.getLsbD j = false → t.status.zones[j].act = s.status.zones[j].act ∧
          t.status.zones[j].deact
            = if s.status.zones[j].deact < s.status.zones[j].act then T else s.status.zones[j].deact))

/-- R254, R255, R256: with a clock that does not run back, a zone reported active ends with activation not behind, level only in a
tie with this very second; a zone reported inactive ends inactive; and active, inactive, active within one second ends in the tie. -/
def Obligations.ZoneActivityFollowsTheReports : Prop :=
  ∀ (g : Group) (m : BitVec 32) (T : Nat) (s : State) (j : Fin 32),
    8 * (g.num - 1) ≤ j.val → j.val < 8 * g.num → s.status.zones[j].act ≤ T → s.status.zones[j].deact ≤ T →
    ∃ t, exec (.zonetrack g m T) s = .next t ∧
      (m.getLsbD j = true → t.status.zones[j].deact ≤ t.status.zones[j].act ∧
        (t.status.zones[j].active = false → t.status.zones[j].act = T ∧ t.status.zones[j].deact = T)) ∧
      (m.getLsbD j = false → t.status.zones[j].active = false) ∧
      (m.getLsbD j = true → s.status.zones[j].active = false →
        ∃ u, execAll [.zonetrack g m T, .zonetrack g 0#32 T, .zonetrack g m T] s = .next u ∧
          u.status.zones[j].act = T ∧ u.status.zones[j].deact = T ∧ u.status.zones[j].active = false)

/-! ### The step and the agents -/

/-- A step runs the decoded operation: the request leaves the agenda and the strobes of the step before go low; `step` then is
`exec` (the model's own frame of a step, log 4 and log 27). -/
def Obligations.StepRunsTheDecodedOperation : Prop :=
  ∀ (s : State) (bytes : List Byte) (rest : List Action) (i : Instr),
    s.agenda = .op bytes :: rest → decode bytes = .ok i → step s = exec i { s with strobes := [], agenda := rest }

/-- With nothing requested the step is the sampler's `TICK`, for some answers of the pins, and it has a next state. That this is
the step when nothing is presented is the model's choice (log 4): R297 (decision D24) says only that `TICK` is always enabled. The
answers are free values, drawn at the model's counter `pinSeq`, which the step moves on: nothing is said of them (log 7). The strobes
of the step before go low (log 27). -/
def Obligations.IdleStepIsATick : Prop :=
  ∀ (s : State), s.agenda = [] → ∃ c d t, exec (.tick c d) { s with strobes := [] } = .next t ∧
    step s = .next { t with pinSeq := s.pinSeq + 1 }

/-- R250: the decoder agent pops; an empty queue ends its drain, otherwise it consumes the word it got. That its update before
is over by then is the model's (log 20). -/
def Obligations.DecoderStepPopsAndConsumes : Prop :=
  ∀ (s : State) (T : Nat) (rest : List Action), s.agenda = .decoderStep T :: rest →
    (s.b2a.items = [] → step s
      = exec (.qpop .decoder .b2a) { s with strobes := [], agenda := rest, reads := { s.reads with updating := none } }) ∧
    (∀ w ws, s.b2a.items = w :: ws → (∃ t, step s = .next t) ∧ step s
      = execAll [.qpop .decoder .b2a, .consume w T] { s with strobes := [], agenda := rest })

/-- R263, R264: a wake of the predictor takes a snapshot, keeps its timestamps, and calls the collaborator only if they changed
since the previous wake, with the UTC text, `obs_time` and the 64 timestamps, activations first; when the call returns, the count of
side-effect calls grows exactly when a line has value 2 for one of the eight (by how much is not said here: the model makes one, log
19), and a failed invocation is reported and skipped; neither a queue nor sampler state is touched. A predictor that waits for its
call does not wake. The model's choices in this: the call and its return are steps, between which any other agent may step (log 33);
the snapshot is a mixture of the versions the predictor may meet, and taking it ends the predictor's read (log 20, for R80); the copy
is kept also when the invocation fails (log 19). -/
def Obligations.PredictorInvokesOnlyOnChange : Prop :=
  ∀ (s : State) (rest : List Action),
    (s.predWaiting = none → ∀ (pick : List Nat) (utc : Text), ∃ snap t,
      step { s with agenda := .predictorCall pick utc :: rest } = .next t ∧
      t = { s with strobes := [], agenda := rest, predLast := snap.zones, predWaiting := t.predWaiting,
                   reads := { s.reads with predictor := none }, ports := { s.ports with snapshot := snap } } ∧
      snap.mixes (s.status :: s.reads.older .predictor) ∧ (pick = [] → snap = s.status) ∧
      (snap.zones = s.predLast → t.predWaiting = none) ∧
      (snap.zones ≠ s.predLast → ∃ c, t.predWaiting = some c ∧ c.utc = utc ∧ c.obsTime = snap.obsTime ∧ c.stamps.length = 64 ∧
        ∀ j : Fin 32, c.stamps[j.val]? = some snap.zones[j].act ∧ c.stamps[32 + j.val]? = some snap.zones[j].deact)) ∧
    (∀ c, s.predWaiting = some c → ∀ answer : Option (List Text), ∃ t,
      step { s with agenda := .predictorReturn answer :: rest } = .next t ∧
      t = { s with strobes := t.strobes, agenda := rest, predWaiting := none, predCalls := t.predCalls,
                   sideEffects := t.sideEffects, evlog := t.evlog } ∧
      (answer = none →
        t.predCalls = s.predCalls ∧ t.sideEffects = s.sideEffects ∧ t.evlog = s.evlog ++ [.predictFail]) ∧
      ∀ lines, answer = some lines → t.evlog = s.evlog ∧ t.predCalls = s.predCalls ++ [c] ∧
        ((∃ line ∈ lines, ∃ k, 1 ≤ k ∧ k ≤ 8 ∧
            ("prediction ".toList ++ Nat.toDigits 10 k ++ ": 2".toList) <:+: line) ↔
          s.sideEffects < t.sideEffects)) ∧
    (s.predWaiting = none → ∀ (pick : List Nat) (utc : Text) (answer : Option (List Text)),
      step { s with agenda := .predictorWake pick utc answer :: rest }
        = stepAll 2 { s with agenda := .predictorCall pick utc :: .predictorReturn answer :: rest } ∧
      step { s with agenda := .predictorReturn answer :: rest } = .next { s with strobes := [], agenda := rest }) ∧
    ∀ c, s.predWaiting = some c → ∀ (pick : List Nat) (utc : Text) (answer : Option (List Text)),
      step { s with agenda := .predictorCall pick utc :: rest } = .next { s with strobes := [], agenda := rest } ∧
      step { s with agenda := .predictorWake pick utc answer :: rest } = .next { s with strobes := [], agenda := rest }

/-- R80 (decision D15): a read of the status, by the responder for a response or by the predictor, takes each field whole from one
of the versions it may meet, and every such mixture is possible: with no read begun before, either side of the update in progress;
with a read begun before, both sides of every update since as well. A read leaves the update in progress to every other read, so any
number of reads may be torn by one update. How long an update is in progress and how a read begins are the model's (log 20). -/
def Obligations.OverlappingReadMixesWholeFields : Prop :=
  ∀ (s : State) (rest : List Action),
    (∀ j rs, s.requests = { symbols := [], json := j } :: rs →
      (∀ snap : PanelStatus,
        (∃ pick t, step { s with agenda := .producerStep pick :: rest } = .next t ∧ t.ports.snapshot = snap) ↔
          snap.mixes (s.status :: s.reads.responder.getD s.reads.updating.toList)) ∧
      ∀ pick, ∃ t, step { s with agenda := .producerStep pick :: rest } = .next t ∧ t.status = s.status ∧
        t.reads = { s.reads with responder := none }) ∧
    (s.predWaiting = none → ∀ utc : Text,
      (∀ snap : PanelStatus,
        (∃ pick t, step { s with agenda := .predictorCall pick utc :: rest } = .next t ∧ t.ports.snapshot = snap) ↔
          snap.mixes (s.status :: s.reads.predictor.getD s.reads.updating.toList)) ∧
      ∀ pick, ∃ t, step { s with agenda := .predictorCall pick utc :: rest } = .next t ∧ t.status = s.status ∧
        t.reads = { s.reads with predictor := none }) ∧
    (∀ T, s.b2a.items ≠ [] → ∃ t, step { s with agenda := .decoderStep T :: rest } = .next t ∧
      t.reads = { updating := some s.status, responder := s.reads.responder.map (s.status :: ·),
                  predictor := s.reads.predictor.map (s.status :: ·) }) ∧
    (∀ j rs, s.requests = { symbols := [], json := j } :: rs →
      step { s with agenda := .readBegin .responder :: rest } = .next { s with strobes := [], agenda := rest, reads :=
        { s.reads with responder := some (s.reads.responder.getD s.reads.updating.toList) } }) ∧
    (s.predWaiting = none →
      step { s with agenda := .readBegin .predictor :: rest } = .next { s with strobes := [], agenda := rest, reads :=
        { s.reads with predictor := some (s.reads.predictor.getD s.reads.updating.toList) } })

/-- R43, R40 (decision D13): every register and queue and the host's state at the value of the reset tables, whatever the
parameters. -/
def Obligations.ResetHasTheTableValues : Prop :=
  ∀ (p : Params),
    (State.resetWith p).phase = .poll ∧ (State.resetWith p).prevClk = .low ∧ (State.resetWith p).bitcnt = 0 ∧
    (∀ k, k < 64 → (State.resetWith p).pbuf.bit k = p.bufFill ∧ (State.resetWith p).kbuf.bit k = p.bufFill) ∧
    (State.resetWith p).curCmd = p.cmd .idle ∧ (State.resetWith p).tMark = 0 ∧ (State.resetWith p).now = 0 ∧
    (State.resetWith p).dataDrv = .low ∧ (State.resetWith p).dirClk = .input ∧ (State.resetWith p).dirData = .bidir ∧
    (State.resetWith p).b2a.items = [] ∧ (State.resetWith p).a2b.items = [] ∧ (State.resetWith p).evlog = [] ∧
    (State.resetWith p).traceIdx = 0 ∧ (State.resetWith p).status.obsTime = 0 ∧ (State.resetWith p).status.led = [] ∧
    (∀ g, (State.resetWith p).status.zone.get g = []) ∧
    (∀ j : Fin 32, (State.resetWith p).status.zones[j] = { act := 0, deact := 0 } ∧
      (State.resetWith p).predLast[j] = { act := 0, deact := 0 }) ∧
    State.reset = State.resetWith defaultParams

/-- R320 (decision D13), R296: the port `rst` leaves the reset state from every state; only the parameters and what the outside
world still presents remain (log 23). R286 (decision D14): a fatal condition ends the run in the fault of its name (log 22). -/
def Obligations.ResetForgetsAndFatalConditionsStop : Prop :=
  ∀ (s : State) (rest : List Action),
    (s.agenda = .rst :: rest →
      step s = .next { State.resetWith s.params with agenda := rest, pinSeq := s.pinSeq }) ∧
    (s.agenda = .fatal .regmap :: rest → step s = .fault .regmap) ∧
    (s.agenda = .fatal .rtSetup :: rest → step s = .fault .rtSetup) ∧
    (s.agenda = .fatal .thread :: rest → step s = .fault .thread) ∧
    (s.agenda = .fatal .clock :: rest → step s = .fault .clock)

/-! ### Rules of the whole machine -/

/-- R37: no step writes a table or any other parameter, a reset included. -/
def Obligations.NoStepWritesATable : Prop :=
  ∀ (s t : State), step s = .next t → t.params = s.params

/-- R32, R280, R290: every step but a reset only appends to the event log, and what it appends is what its strobes show. The strobes
as the events of the latest step are the model's (log 27), and so is that a reset empties the log as a step (log 23). -/
def Obligations.EventsAreOnlyAppended : Prop :=
  ∀ (s t : State), s.agenda.head? ≠ some .rst → step s = .next t → t.evlog = s.evlog ++ t.strobes

/-- Which operations write which part of the state. The registers, `b2a`, `a2b` and `evlog` are R42's table and the rules of its
operations, the directions R61's, the status R251's and R252's, and `pred_last` R263's. The model's own fields and readings in this:
RISE and FALL as writers of `prev_clk` and `phase`, each row being what the poll does on its pair (log 8), and the rows of single
steps as writers when they are requested (log 9); who writes `requests` (log 30) and `reads` (log 20); and that no operation writes
`predWaiting` (log 33), `agenda` (log 4) or `pinSeq` (log 7). -/
def Obligations.OnlyTheNamedOperationsWriteARegister : Prop :=
  ∀ (i : Instr) (s t : State), exec i s = .next t →
    (t.now ≠ s.now → ∃ c d, i = .tick c d) ∧
    (t.prevClk ≠ s.prevClk → i = .rise ∨ i = .fall ∨ (∃ c, i = .poll c) ∨ ∃ c d, i = .tick c d) ∧
    (t.phase ≠ s.phase → i = .rise ∨ i = .fall ∨ (∃ c, i = .poll c) ∨ ∃ c d, i = .tick c d) ∧
    (t.bitcnt ≠ s.bitcnt →
      i = .resetFrame ∨ (∃ l, i = .psample l) ∨ i = .rise ∨ (∃ c, i = .poll c) ∨ ∃ c d, i = .tick c d) ∧
    (t.pbuf ≠ s.pbuf →
      i = .resetFrame ∨ (∃ l, i = .psample l) ∨ i = .rise ∨ (∃ c, i = .poll c) ∨ ∃ c d, i = .tick c d) ∧
    (t.kbuf ≠ s.kbuf →
      i = .resetFrame ∨ (∃ l, i = .ksample l) ∨ i = .rise ∨ (∃ c, i = .poll c) ∨ ∃ c d, i = .tick c d) ∧
    (t.dataDrv ≠ s.dataDrv →
      i = .drive ∨ i = .release ∨ i = .rise ∨ (∃ c, i = .poll c) ∨ ∃ c d, i = .tick c d) ∧
    (t.curCmd ≠ s.curCmd → i = .validFrame ∨ i = .rise ∨ (∃ c, i = .poll c) ∨ ∃ c d, i = .tick c d) ∧
    (t.tMark ≠ s.tMark → i = .boundaryMark ∨ i = .resetFrame ∨ i = .rise ∨ (∃ c, i = .poll c) ∨ ∃ c d, i = .tick c d) ∧
    (t.dirClk ≠ s.dirClk → ∃ d, i = .pinconfig .clk d) ∧
    (t.dirData ≠ s.dirData → ∃ d, i = .pinconfig .data d) ∧
    (t.b2a ≠ s.b2a → i = .validFrame ∨ i = .rise ∨ (∃ c, i = .poll c) ∨ (∃ c d, i = .tick c d) ∨
      (∃ w, i = .qpushOverwrite .sampler w) ∨ i = .qpop .decoder .b2a) ∧
    (t.a2b ≠ s.a2b → i = .validFrame ∨ i = .rise ∨ (∃ c, i = .poll c) ∨ (∃ c d, i = .tick c d) ∨
      (∃ w, i = .qpushReject .producer w) ∨ i = .qpop .sampler .a2b ∨
      (∃ ds, i = .reqDigits ds) ∨ ∃ body, i ∈ (nameRows body).map Prod.fst) ∧
    (t.evlog ≠ s.evlog → i = .shortFrame ∨ i = .validFrame ∨ i = .rise ∨ (∃ c, i = .poll c) ∨ (∃ c d, i = .tick c d) ∨
      (∃ w, i = .qpushReject .producer w) ∨ (∃ ds, i = .reqDigits ds) ∨ ∃ body, i ∈ (nameRows body).map Prod.fst) ∧
    (t.requests ≠ s.requests → (∃ ds, i = .reqDigits ds) ∨ ∃ body, i ∈ (nameRows body).map Prod.fst) ∧
    (t.status ≠ s.status → (∃ w T, i = .consume w T) ∨ ∃ g m T, i = .zonetrack g m T) ∧
    (t.reads ≠ s.reads → (∃ w T, i = .consume w T) ∨ (∃ g m T, i = .zonetrack g m T) ∨
      (∃ ds, i = .reqDigits ds) ∨ ∃ body, i ∈ (nameRows body).map Prod.fst) ∧
    t.predLast = s.predLast ∧ t.predWaiting = s.predWaiting ∧ t.agenda = s.agenda ∧ t.pinSeq = s.pinSeq

/-! ### Invariants -/

/-- R175, R178, R103, R106: every step keeps both queues within capacity and their indices in place, and the parameters well formed. -/
def Obligations.StorageStaysCanonical : Prop :=
  ∀ (s t : State), s.storageOk = true → step s = .next t → t.storageOk = true

/-- R144 (1) to (4), with `kbuf` from the position after the counter: kept by every step, whatever is requested. -/
def Obligations.BufferInvariantIsKept : Prop :=
  ∀ (s t : State), s.BufferInv → step s = .next t → t.BufferInv

/-- R144 (3) at the counter's own position and (5), R21 and R30: kept by every step that an agent takes by itself (R297). -/
def Obligations.SequenceInvariantIsKept : Prop :=
  ∀ (s t : State), s.storageOk = true → s.BufferInv → s.SequenceInv →
    (∀ a, s.agenda.head? = some a → a.isAgents = true) → step s = .next t → t.SequenceInv

/-- R144, R175: the three invariants hold after reset, for every well-formed choice of the parameters. -/
def Obligations.InvariantsHoldAtReset : Prop :=
  ∀ (p : Params), p.wf = true →
    (State.resetWith p).storageOk = true ∧ (State.resetWith p).BufferInv ∧ (State.resetWith p).SequenceInv

/-! ### Encodings -/

/-- Decoding the bytes of a well-formed operation gives it back, every operand at every value (the byte layout is the model's,
log 5). -/
def Obligations.DecodeOfEncodeIsTheOperation : Prop :=
  ∀ (i : Instr), i.wf = true → decode (encode i) = .ok i

/-- Words written out from R104, R110, R112 and R114 decode to the operation they stand for. That 64 bits are read as a command word
before a bus word and 24 bits as a button field is the model's (log 6), and so is the byte before a request line (log 5). -/
def Obligations.WrittenWordsDecodeRight : Prop :=
  decodeTableWord 64 0b0010011100000000000000000000000000000000000000101000000000000000 = some (.decZone1 0x2700000000028000#64) ∧
  decodeTableWord 64 0b1111111110010100011111111111111111111111111111111111111111111111 = some .encStar ∧
  decodeTableWord 24 0b10010100011111111111 = some .matchStar ∧
  decodeTableWord 2 0b01 = some .rise ∧
  decode (lineBytes bodyTag) = .ok .reqTag
end

