-- ==== Sys2Proof/Laws/Queue.lean ====
section
/-! SUPPORT. What the queue operations do, once each, and that they keep the canonical form. -/

namespace Sys2Proof.Machine

theorem Queue.wf_iff (cap : Nat) (q : Queue) :
    q.wf cap = true ↔ q.items.length ≤ cap ∧ q.rd < cap ∧ q.wr = (q.rd + q.items.length) % cap := by
  simp [Queue.wf, and_assoc]

theorem Queue.full_iff (cap : Nat) (q : Queue) : q.full cap = true ↔ q.items.length = cap := by
  simp [Queue.full]

/-- The elements after an overwriting push. -/
theorem Queue.pushOverwrite_items (cap : Nat) (w : Word) (q : Queue) :
    (q.pushOverwrite cap w).1.items = (if q.items.length = cap then q.items.tail else q.items) ++ [w] := by
  unfold Queue.pushOverwrite
  by_cases h : q.items.length = cap <;> simp [Queue.full, h]

/-- An overwriting push says that it dropped an element exactly when the queue was full. -/
theorem Queue.pushOverwrite_overrun (cap : Nat) (w : Word) (q : Queue) :
    (q.pushOverwrite cap w).2 = decide (q.items.length = cap) := by
  unfold Queue.pushOverwrite
  by_cases h : q.items.length = cap <;> simp [Queue.full, h]

theorem Queue.pushReject_items (cap : Nat) (w : Word) (q : Queue) :
    (q.pushReject cap w).1.items = if q.items.length = cap then q.items else q.items ++ [w] := by
  unfold Queue.pushReject
  by_cases h : q.items.length = cap <;> simp [Queue.full, h]

theorem Queue.pushReject_ok (cap : Nat) (w : Word) (q : Queue) :
    (q.pushReject cap w).2 = !decide (q.items.length = cap) := by
  unfold Queue.pushReject
  by_cases h : q.items.length = cap <;> simp [Queue.full, h]

theorem Queue.pop_items (cap : Nat) (q : Queue) : (q.pop cap).1.items = q.items.tail := by
  unfold Queue.pop; split <;> simp_all

theorem Queue.pop_answer (cap : Nat) (q : Queue) : (q.pop cap).2 = q.items.head? := by
  unfold Queue.pop; split <;> simp_all

/-- An overwriting push keeps the canonical form. -/
theorem Queue.pushOverwrite_wf {cap : Nat} (w : Word) {q : Queue} (hc : 1 ≤ cap) (h : q.wf cap = true) :
    (q.pushOverwrite cap w).1.wf cap = true := by
  obtain ⟨h1, h2, h3⟩ := (Queue.wf_iff cap q).mp h
  rw [Queue.wf_iff]
  unfold Queue.pushOverwrite
  by_cases hf : q.items.length = cap
  · simp only [Queue.full, hf, beq_self_eq_true, if_true, List.length_append, List.length_tail]
    refine ⟨by simp; omega, Nat.mod_lt _ hc, ?_⟩
    rw [h3, hf]
    have e : cap - 1 + [w].length = cap := by simp; omega
    rw [e]; simp
  · simp only [Queue.full, beq_iff_eq, hf, if_false, List.length_append]
    refine ⟨by simp; omega, h2, ?_⟩
    rw [h3, Nat.mod_add_mod, Nat.add_assoc]; rfl

/-- A rejecting push keeps the canonical form. -/
theorem Queue.pushReject_wf {cap : Nat} (w : Word) {q : Queue} (h : q.wf cap = true) :
    (q.pushReject cap w).1.wf cap = true := by
  obtain ⟨h1, h2, h3⟩ := (Queue.wf_iff cap q).mp h
  rw [Queue.wf_iff]
  unfold Queue.pushReject
  by_cases hf : q.items.length = cap
  · simp only [Queue.full, hf, beq_self_eq_true, if_true]
    exact ⟨by omega, h2, by rw [h3, hf]⟩
  · simp only [Queue.full, beq_iff_eq, hf, if_false, List.length_append]
    refine ⟨by simp; omega, h2, ?_⟩
    rw [h3, Nat.mod_add_mod, Nat.add_assoc]; rfl

/-- A pop keeps the canonical form. -/
theorem Queue.pop_wf {cap : Nat} {q : Queue} (hc : 1 ≤ cap) (h : q.wf cap = true) :
    (q.pop cap).1.wf cap = true := by
  obtain ⟨h1, h2, h3⟩ := (Queue.wf_iff cap q).mp h
  unfold Queue.pop
  split
  · exact h
  · rename_i w ws e
    rw [Queue.wf_iff]
    simp only [e, List.length_cons] at h1 h3
    refine ⟨by simp; omega, Nat.mod_lt _ hc, ?_⟩
    simp only [h3, Nat.mod_add_mod]
    congr 1; omega

theorem Queue.empty_wf {cap : Nat} (hc : 1 ≤ cap) : Queue.empty.wf cap = true := by
  rw [Queue.wf_iff]; simp [Queue.empty]; omega

end Sys2Proof.Machine
end

