-- ==== Sys2Proof/Laws/State.lean ====
section
/-! SUPPORT. One lemma per field per update of State, so that no later proof unfolds a record update. Every lemma of the first
part is true by rfl. -/

namespace Sys2Proof.Machine

variable (s : State)

@[simp] theorem State.reportAll_params (es : List Event) : (s.reportAll es).params = s.params := rfl
@[simp] theorem State.reportAll_phase (es : List Event) : (s.reportAll es).phase = s.phase := rfl
@[simp] theorem State.reportAll_prevClk (es : List Event) : (s.reportAll es).prevClk = s.prevClk := rfl
@[simp] theorem State.reportAll_bitcnt (es : List Event) : (s.reportAll es).bitcnt = s.bitcnt := rfl
@[simp] theorem State.reportAll_pbuf (es : List Event) : (s.reportAll es).pbuf = s.pbuf := rfl
@[simp] theorem State.reportAll_kbuf (es : List Event) : (s.reportAll es).kbuf = s.kbuf := rfl
@[simp] theorem State.reportAll_curCmd (es : List Event) : (s.reportAll es).curCmd = s.curCmd := rfl
@[simp] theorem State.reportAll_tMark (es : List Event) : (s.reportAll es).tMark = s.tMark := rfl
@[simp] theorem State.reportAll_now (es : List Event) : (s.reportAll es).now = s.now := rfl
@[simp] theorem State.reportAll_dataDrv (es : List Event) : (s.reportAll es).dataDrv = s.dataDrv := rfl
@[simp] theorem State.reportAll_dirClk (es : List Event) : (s.reportAll es).dirClk = s.dirClk := rfl
@[simp] theorem State.reportAll_dirData (es : List Event) : (s.reportAll es).dirData = s.dirData := rfl
@[simp] theorem State.reportAll_b2a (es : List Event) : (s.reportAll es).b2a = s.b2a := rfl
@[simp] theorem State.reportAll_a2b (es : List Event) : (s.reportAll es).a2b = s.a2b := rfl
@[simp] theorem State.reportAll_evlog (es : List Event) : (s.reportAll es).evlog = s.evlog ++ es := rfl
@[simp] theorem State.reportAll_strobes (es : List Event) : (s.reportAll es).strobes = s.strobes ++ es := rfl
@[simp] theorem State.reportAll_status (es : List Event) : (s.reportAll es).status = s.status := rfl
@[simp] theorem State.reportAll_traceIdx (es : List Event) : (s.reportAll es).traceIdx = s.traceIdx := rfl
@[simp] theorem State.reportAll_traceOut (es : List Event) : (s.reportAll es).traceOut = s.traceOut := rfl
@[simp] theorem State.reportAll_predLast (es : List Event) : (s.reportAll es).predLast = s.predLast := rfl
@[simp] theorem State.reportAll_predWaiting (es : List Event) : (s.reportAll es).predWaiting = s.predWaiting := rfl
@[simp] theorem State.reportAll_predCalls (es : List Event) : (s.reportAll es).predCalls = s.predCalls := rfl
@[simp] theorem State.reportAll_sideEffects (es : List Event) : (s.reportAll es).sideEffects = s.sideEffects := rfl
@[simp] theorem State.reportAll_ports (es : List Event) : (s.reportAll es).ports = s.ports := rfl
@[simp] theorem State.reportAll_requests (es : List Event) : (s.reportAll es).requests = s.requests := rfl
@[simp] theorem State.reportAll_reads (es : List Event) : (s.reportAll es).reads = s.reads := rfl
@[simp] theorem State.reportAll_agenda (es : List Event) : (s.reportAll es).agenda = s.agenda := rfl
@[simp] theorem State.reportAll_pinSeq (es : List Event) : (s.reportAll es).pinSeq = s.pinSeq := rfl

@[simp] theorem State.report_params (e : Event) : (s.report e).params = s.params := rfl
@[simp] theorem State.report_phase (e : Event) : (s.report e).phase = s.phase := rfl
@[simp] theorem State.report_prevClk (e : Event) : (s.report e).prevClk = s.prevClk := rfl
@[simp] theorem State.report_bitcnt (e : Event) : (s.report e).bitcnt = s.bitcnt := rfl
@[simp] theorem State.report_pbuf (e : Event) : (s.report e).pbuf = s.pbuf := rfl
@[simp] theorem State.report_kbuf (e : Event) : (s.report e).kbuf = s.kbuf := rfl
@[simp] theorem State.report_curCmd (e : Event) : (s.report e).curCmd = s.curCmd := rfl
@[simp] theorem State.report_tMark (e : Event) : (s.report e).tMark = s.tMark := rfl
@[simp] theorem State.report_now (e : Event) : (s.report e).now = s.now := rfl
@[simp] theorem State.report_dataDrv (e : Event) : (s.report e).dataDrv = s.dataDrv := rfl
@[simp] theorem State.report_dirClk (e : Event) : (s.report e).dirClk = s.dirClk := rfl
@[simp] theorem State.report_dirData (e : Event) : (s.report e).dirData = s.dirData := rfl
@[simp] theorem State.report_b2a (e : Event) : (s.report e).b2a = s.b2a := rfl
@[simp] theorem State.report_a2b (e : Event) : (s.report e).a2b = s.a2b := rfl
@[simp] theorem State.report_evlog (e : Event) : (s.report e).evlog = s.evlog ++ [e] := rfl
@[simp] theorem State.report_strobes (e : Event) : (s.report e).strobes = s.strobes ++ [e] := rfl
@[simp] theorem State.report_status (e : Event) : (s.report e).status = s.status := rfl
@[simp] theorem State.report_traceIdx (e : Event) : (s.report e).traceIdx = s.traceIdx := rfl
@[simp] theorem State.report_traceOut (e : Event) : (s.report e).traceOut = s.traceOut := rfl
@[simp] theorem State.report_predLast (e : Event) : (s.report e).predLast = s.predLast := rfl
@[simp] theorem State.report_predWaiting (e : Event) : (s.report e).predWaiting = s.predWaiting := rfl
@[simp] theorem State.report_predCalls (e : Event) : (s.report e).predCalls = s.predCalls := rfl
@[simp] theorem State.report_sideEffects (e : Event) : (s.report e).sideEffects = s.sideEffects := rfl
@[simp] theorem State.report_ports (e : Event) : (s.report e).ports = s.ports := rfl
@[simp] theorem State.report_requests (e : Event) : (s.report e).requests = s.requests := rfl
@[simp] theorem State.report_reads (e : Event) : (s.report e).reads = s.reads := rfl
@[simp] theorem State.report_agenda (e : Event) : (s.report e).agenda = s.agenda := rfl
@[simp] theorem State.report_pinSeq (e : Event) : (s.report e).pinSeq = s.pinSeq := rfl

@[simp] theorem State.pushFrame_params (k : Fin 2) (w : Word) : (s.pushFrame k w).params = s.params := rfl
@[simp] theorem State.pushFrame_phase (k : Fin 2) (w : Word) : (s.pushFrame k w).phase = s.phase := rfl
@[simp] theorem State.pushFrame_prevClk (k : Fin 2) (w : Word) : (s.pushFrame k w).prevClk = s.prevClk := rfl
@[simp] theorem State.pushFrame_bitcnt (k : Fin 2) (w : Word) : (s.pushFrame k w).bitcnt = s.bitcnt := rfl
@[simp] theorem State.pushFrame_pbuf (k : Fin 2) (w : Word) : (s.pushFrame k w).pbuf = s.pbuf := rfl
@[simp] theorem State.pushFrame_kbuf (k : Fin 2) (w : Word) : (s.pushFrame k w).kbuf = s.kbuf := rfl
@[simp] theorem State.pushFrame_curCmd (k : Fin 2) (w : Word) : (s.pushFrame k w).curCmd = s.curCmd := rfl
@[simp] theorem State.pushFrame_tMark (k : Fin 2) (w : Word) : (s.pushFrame k w).tMark = s.tMark := rfl
@[simp] theorem State.pushFrame_now (k : Fin 2) (w : Word) : (s.pushFrame k w).now = s.now := rfl
@[simp] theorem State.pushFrame_dataDrv (k : Fin 2) (w : Word) : (s.pushFrame k w).dataDrv = s.dataDrv := rfl
@[simp] theorem State.pushFrame_dirClk (k : Fin 2) (w : Word) : (s.pushFrame k w).dirClk = s.dirClk := rfl
@[simp] theorem State.pushFrame_dirData (k : Fin 2) (w : Word) : (s.pushFrame k w).dirData = s.dirData := rfl
@[simp] theorem State.pushFrame_b2a (k : Fin 2) (w : Word) :
    (s.pushFrame k w).b2a = (s.b2a.pushOverwrite s.params.capB2a w).1 := rfl
@[simp] theorem State.pushFrame_a2b (k : Fin 2) (w : Word) : (s.pushFrame k w).a2b = s.a2b := rfl
@[simp] theorem State.pushFrame_evlog (k : Fin 2) (w : Word) :
    (s.pushFrame k w).evlog = s.evlog ++ Event.onlyIf (s.b2a.pushOverwrite s.params.capB2a w).2 (.b2aOverrun k) := rfl
@[simp] theorem State.pushFrame_strobes (k : Fin 2) (w : Word) :
    (s.pushFrame k w).strobes = s.strobes ++ Event.onlyIf (s.b2a.pushOverwrite s.params.capB2a w).2 (.b2aOverrun k) := rfl
@[simp] theorem State.pushFrame_status (k : Fin 2) (w : Word) : (s.pushFrame k w).status = s.status := rfl
@[simp] theorem State.pushFrame_traceIdx (k : Fin 2) (w : Word) : (s.pushFrame k w).traceIdx = s.traceIdx := rfl
@[simp] theorem State.pushFrame_traceOut (k : Fin 2) (w : Word) : (s.pushFrame k w).traceOut = s.traceOut := rfl
@[simp] theorem State.pushFrame_predLast (k : Fin 2) (w : Word) : (s.pushFrame k w).predLast = s.predLast := rfl
@[simp] theorem State.pushFrame_predWaiting (k : Fin 2) (w : Word) : (s.pushFrame k w).predWaiting = s.predWaiting := rfl
@[simp] theorem State.pushFrame_predCalls (k : Fin 2) (w : Word) : (s.pushFrame k w).predCalls = s.predCalls := rfl
@[simp] theorem State.pushFrame_sideEffects (k : Fin 2) (w : Word) :
    (s.pushFrame k w).sideEffects = s.sideEffects := rfl
@[simp] theorem State.pushFrame_ports (k : Fin 2) (w : Word) : (s.pushFrame k w).ports = s.ports := rfl
@[simp] theorem State.pushFrame_requests (k : Fin 2) (w : Word) : (s.pushFrame k w).requests = s.requests := rfl
@[simp] theorem State.pushFrame_reads (k : Fin 2) (w : Word) : (s.pushFrame k w).reads = s.reads := rfl
@[simp] theorem State.pushFrame_agenda (k : Fin 2) (w : Word) : (s.pushFrame k w).agenda = s.agenda := rfl
@[simp] theorem State.pushFrame_pinSeq (k : Fin 2) (w : Word) : (s.pushFrame k w).pinSeq = s.pinSeq := rfl

@[simp] theorem State.loadCommand_params : (s.loadCommand).params = s.params := rfl
@[simp] theorem State.loadCommand_phase : (s.loadCommand).phase = s.phase := rfl
@[simp] theorem State.loadCommand_prevClk : (s.loadCommand).prevClk = s.prevClk := rfl
@[simp] theorem State.loadCommand_bitcnt : (s.loadCommand).bitcnt = s.bitcnt := rfl
@[simp] theorem State.loadCommand_pbuf : (s.loadCommand).pbuf = s.pbuf := rfl
@[simp] theorem State.loadCommand_kbuf : (s.loadCommand).kbuf = s.kbuf := rfl
@[simp] theorem State.loadCommand_curCmd :
    (s.loadCommand).curCmd = (s.a2b.pop s.params.capA2b).2.getD (s.params.cmd .idle) := rfl
@[simp] theorem State.loadCommand_tMark : (s.loadCommand).tMark = s.tMark := rfl
@[simp] theorem State.loadCommand_now : (s.loadCommand).now = s.now := rfl
@[simp] theorem State.loadCommand_dataDrv : (s.loadCommand).dataDrv = s.dataDrv := rfl
@[simp] theorem State.loadCommand_dirClk : (s.loadCommand).dirClk = s.dirClk := rfl
@[simp] theorem State.loadCommand_dirData : (s.loadCommand).dirData = s.dirData := rfl
@[simp] theorem State.loadCommand_b2a : (s.loadCommand).b2a = s.b2a := rfl
@[simp] theorem State.loadCommand_a2b : (s.loadCommand).a2b = (s.a2b.pop s.params.capA2b).1 := rfl
@[simp] theorem State.loadCommand_evlog : (s.loadCommand).evlog = s.evlog := rfl
@[simp] theorem State.loadCommand_strobes : (s.loadCommand).strobes = s.strobes := rfl
@[simp] theorem State.loadCommand_status : (s.loadCommand).status = s.status := rfl
@[simp] theorem State.loadCommand_traceIdx : (s.loadCommand).traceIdx = s.traceIdx := rfl
@[simp] theorem State.loadCommand_traceOut : (s.loadCommand).traceOut = s.traceOut := rfl
@[simp] theorem State.loadCommand_predLast : (s.loadCommand).predLast = s.predLast := rfl
@[simp] theorem State.loadCommand_predWaiting : (s.loadCommand).predWaiting = s.predWaiting := rfl
@[simp] theorem State.loadCommand_predCalls : (s.loadCommand).predCalls = s.predCalls := rfl
@[simp] theorem State.loadCommand_sideEffects : (s.loadCommand).sideEffects = s.sideEffects := rfl
@[simp] theorem State.loadCommand_ports : (s.loadCommand).ports = s.ports := rfl
@[simp] theorem State.loadCommand_requests : (s.loadCommand).requests = s.requests := rfl
@[simp] theorem State.loadCommand_reads : (s.loadCommand).reads = s.reads := rfl
@[simp] theorem State.loadCommand_agenda : (s.loadCommand).agenda = s.agenda := rfl
@[simp] theorem State.loadCommand_pinSeq : (s.loadCommand).pinSeq = s.pinSeq := rfl

@[simp] theorem State.pushCommand_params (w : Word) : (s.pushCommand w).params = s.params := rfl
@[simp] theorem State.pushCommand_phase (w : Word) : (s.pushCommand w).phase = s.phase := rfl
@[simp] theorem State.pushCommand_prevClk (w : Word) : (s.pushCommand w).prevClk = s.prevClk := rfl
@[simp] theorem State.pushCommand_bitcnt (w : Word) : (s.pushCommand w).bitcnt = s.bitcnt := rfl
@[simp] theorem State.pushCommand_pbuf (w : Word) : (s.pushCommand w).pbuf = s.pbuf := rfl
@[simp] theorem State.pushCommand_kbuf (w : Word) : (s.pushCommand w).kbuf = s.kbuf := rfl
@[simp] theorem State.pushCommand_curCmd (w : Word) : (s.pushCommand w).curCmd = s.curCmd := rfl
@[simp] theorem State.pushCommand_tMark (w : Word) : (s.pushCommand w).tMark = s.tMark := rfl
@[simp] theorem State.pushCommand_now (w : Word) : (s.pushCommand w).now = s.now := rfl
@[simp] theorem State.pushCommand_dataDrv (w : Word) : (s.pushCommand w).dataDrv = s.dataDrv := rfl
@[simp] theorem State.pushCommand_dirClk (w : Word) : (s.pushCommand w).dirClk = s.dirClk := rfl
@[simp] theorem State.pushCommand_dirData (w : Word) : (s.pushCommand w).dirData = s.dirData := rfl
@[simp] theorem State.pushCommand_b2a (w : Word) : (s.pushCommand w).b2a = s.b2a := rfl
@[simp] theorem State.pushCommand_a2b (w : Word) :
    (s.pushCommand w).a2b = (s.a2b.pushReject s.params.capA2b w).1 := rfl
@[simp] theorem State.pushCommand_evlog (w : Word) :
    (s.pushCommand w).evlog = s.evlog ++ Event.onlyIf (!(s.a2b.pushReject s.params.capA2b w).2) .a2bFull := rfl
@[simp] theorem State.pushCommand_strobes (w : Word) :
    (s.pushCommand w).strobes = s.strobes ++ Event.onlyIf (!(s.a2b.pushReject s.params.capA2b w).2) .a2bFull := rfl
@[simp] theorem State.pushCommand_status (w : Word) : (s.pushCommand w).status = s.status := rfl
@[simp] theorem State.pushCommand_traceIdx (w : Word) : (s.pushCommand w).traceIdx = s.traceIdx := rfl
@[simp] theorem State.pushCommand_traceOut (w : Word) : (s.pushCommand w).traceOut = s.traceOut := rfl
@[simp] theorem State.pushCommand_predLast (w : Word) : (s.pushCommand w).predLast = s.predLast := rfl
@[simp] theorem State.pushCommand_predWaiting (w : Word) : (s.pushCommand w).predWaiting = s.predWaiting := rfl
@[simp] theorem State.pushCommand_predCalls (w : Word) : (s.pushCommand w).predCalls = s.predCalls := rfl
@[simp] theorem State.pushCommand_sideEffects (w : Word) : (s.pushCommand w).sideEffects = s.sideEffects := rfl
@[simp] theorem State.pushCommand_ports (w : Word) :
    (s.pushCommand w).ports = { s.ports with a2bOk := (s.a2b.pushReject s.params.capA2b w).2 } := rfl
@[simp] theorem State.pushCommand_requests (w : Word) : (s.pushCommand w).requests = s.requests := rfl
@[simp] theorem State.pushCommand_reads (w : Word) : (s.pushCommand w).reads = s.reads := rfl
@[simp] theorem State.pushCommand_agenda (w : Word) : (s.pushCommand w).agenda = s.agenda := rfl
@[simp] theorem State.pushCommand_pinSeq (w : Word) : (s.pushCommand w).pinSeq = s.pinSeq := rfl

@[simp] theorem State.writeData_params (l : Level) : (s.writeData l).params = s.params := rfl
@[simp] theorem State.writeData_phase (l : Level) : (s.writeData l).phase = s.phase := rfl
@[simp] theorem State.writeData_prevClk (l : Level) : (s.writeData l).prevClk = s.prevClk := rfl
@[simp] theorem State.writeData_bitcnt (l : Level) : (s.writeData l).bitcnt = s.bitcnt := rfl
@[simp] theorem State.writeData_pbuf (l : Level) : (s.writeData l).pbuf = s.pbuf := rfl
@[simp] theorem State.writeData_kbuf (l : Level) : (s.writeData l).kbuf = s.kbuf := rfl
@[simp] theorem State.writeData_curCmd (l : Level) : (s.writeData l).curCmd = s.curCmd := rfl
@[simp] theorem State.writeData_tMark (l : Level) : (s.writeData l).tMark = s.tMark := rfl
@[simp] theorem State.writeData_now (l : Level) : (s.writeData l).now = s.now := rfl
@[simp] theorem State.writeData_dataDrv (l : Level) : (s.writeData l).dataDrv = l := rfl
@[simp] theorem State.writeData_dirClk (l : Level) : (s.writeData l).dirClk = s.dirClk := rfl
@[simp] theorem State.writeData_dirData (l : Level) : (s.writeData l).dirData = s.dirData := rfl
@[simp] theorem State.writeData_b2a (l : Level) : (s.writeData l).b2a = s.b2a := rfl
@[simp] theorem State.writeData_a2b (l : Level) : (s.writeData l).a2b = s.a2b := rfl
@[simp] theorem State.writeData_evlog (l : Level) : (s.writeData l).evlog = s.evlog := rfl
@[simp] theorem State.writeData_strobes (l : Level) : (s.writeData l).strobes = s.strobes := rfl
@[simp] theorem State.writeData_status (l : Level) : (s.writeData l).status = s.status := rfl
@[simp] theorem State.writeData_traceIdx (l : Level) : (s.writeData l).traceIdx = s.traceIdx := rfl
@[simp] theorem State.writeData_traceOut (l : Level) : (s.writeData l).traceOut = s.traceOut := rfl
@[simp] theorem State.writeData_predLast (l : Level) : (s.writeData l).predLast = s.predLast := rfl
@[simp] theorem State.writeData_predWaiting (l : Level) : (s.writeData l).predWaiting = s.predWaiting := rfl
@[simp] theorem State.writeData_predCalls (l : Level) : (s.writeData l).predCalls = s.predCalls := rfl
@[simp] theorem State.writeData_sideEffects (l : Level) : (s.writeData l).sideEffects = s.sideEffects := rfl
@[simp] theorem State.writeData_ports (l : Level) : (s.writeData l).ports = s.ports := rfl
@[simp] theorem State.writeData_requests (l : Level) : (s.writeData l).requests = s.requests := rfl
@[simp] theorem State.writeData_reads (l : Level) : (s.writeData l).reads = s.reads := rfl
@[simp] theorem State.writeData_agenda (l : Level) : (s.writeData l).agenda = s.agenda := rfl
@[simp] theorem State.writeData_pinSeq (l : Level) : (s.writeData l).pinSeq = s.pinSeq := rfl

@[simp] theorem State.begin_params (rest : List Action) : (s.begin rest).params = s.params := rfl
@[simp] theorem State.begin_phase (rest : List Action) : (s.begin rest).phase = s.phase := rfl
@[simp] theorem State.begin_prevClk (rest : List Action) : (s.begin rest).prevClk = s.prevClk := rfl
@[simp] theorem State.begin_bitcnt (rest : List Action) : (s.begin rest).bitcnt = s.bitcnt := rfl
@[simp] theorem State.begin_pbuf (rest : List Action) : (s.begin rest).pbuf = s.pbuf := rfl
@[simp] theorem State.begin_kbuf (rest : List Action) : (s.begin rest).kbuf = s.kbuf := rfl
@[simp] theorem State.begin_curCmd (rest : List Action) : (s.begin rest).curCmd = s.curCmd := rfl
@[simp] theorem State.begin_tMark (rest : List Action) : (s.begin rest).tMark = s.tMark := rfl
@[simp] theorem State.begin_now (rest : List Action) : (s.begin rest).now = s.now := rfl
@[simp] theorem State.begin_dataDrv (rest : List Action) : (s.begin rest).dataDrv = s.dataDrv := rfl
@[simp] theorem State.begin_dirClk (rest : List Action) : (s.begin rest).dirClk = s.dirClk := rfl
@[simp] theorem State.begin_dirData (rest : List Action) : (s.begin rest).dirData = s.dirData := rfl
@[simp] theorem State.begin_b2a (rest : List Action) : (s.begin rest).b2a = s.b2a := rfl
@[simp] theorem State.begin_a2b (rest : List Action) : (s.begin rest).a2b = s.a2b := rfl
@[simp] theorem State.begin_evlog (rest : List Action) : (s.begin rest).evlog = s.evlog := rfl
@[simp] theorem State.begin_strobes (rest : List Action) : (s.begin rest).strobes = [] := rfl
@[simp] theorem State.begin_status (rest : List Action) : (s.begin rest).status = s.status := rfl
@[simp] theorem State.begin_traceIdx (rest : List Action) : (s.begin rest).traceIdx = s.traceIdx := rfl
@[simp] theorem State.begin_traceOut (rest : List Action) : (s.begin rest).traceOut = s.traceOut := rfl
@[simp] theorem State.begin_predLast (rest : List Action) : (s.begin rest).predLast = s.predLast := rfl
@[simp] theorem State.begin_predWaiting (rest : List Action) : (s.begin rest).predWaiting = s.predWaiting := rfl
@[simp] theorem State.begin_predCalls (rest : List Action) : (s.begin rest).predCalls = s.predCalls := rfl
@[simp] theorem State.begin_sideEffects (rest : List Action) : (s.begin rest).sideEffects = s.sideEffects := rfl
@[simp] theorem State.begin_ports (rest : List Action) : (s.begin rest).ports = s.ports := rfl
@[simp] theorem State.begin_requests (rest : List Action) : (s.begin rest).requests = s.requests := rfl
@[simp] theorem State.begin_reads (rest : List Action) : (s.begin rest).reads = s.reads := rfl
@[simp] theorem State.begin_agenda (rest : List Action) : (s.begin rest).agenda = rest := rfl
@[simp] theorem State.begin_pinSeq (rest : List Action) : (s.begin rest).pinSeq = s.pinSeq := rfl

@[simp] theorem State.mark_params : (s.mark).params = s.params := rfl
@[simp] theorem State.mark_phase : (s.mark).phase = s.phase := rfl
@[simp] theorem State.mark_prevClk : (s.mark).prevClk = s.prevClk := rfl
@[simp] theorem State.mark_bitcnt : (s.mark).bitcnt = s.bitcnt := rfl
@[simp] theorem State.mark_pbuf : (s.mark).pbuf = s.pbuf := rfl
@[simp] theorem State.mark_kbuf : (s.mark).kbuf = s.kbuf := rfl
@[simp] theorem State.mark_curCmd : (s.mark).curCmd = s.curCmd := rfl
@[simp] theorem State.mark_tMark : (s.mark).tMark = if s.params.markEveryEdge then s.now else s.tMark := rfl
@[simp] theorem State.mark_now : (s.mark).now = s.now := rfl
@[simp] theorem State.mark_dataDrv : (s.mark).dataDrv = s.dataDrv := rfl
@[simp] theorem State.mark_dirClk : (s.mark).dirClk = s.dirClk := rfl
@[simp] theorem State.mark_dirData : (s.mark).dirData = s.dirData := rfl
@[simp] theorem State.mark_b2a : (s.mark).b2a = s.b2a := rfl
@[simp] theorem State.mark_a2b : (s.mark).a2b = s.a2b := rfl
@[simp] theorem State.mark_evlog : (s.mark).evlog = s.evlog := rfl
@[simp] theorem State.mark_strobes : (s.mark).strobes = s.strobes := rfl
@[simp] theorem State.mark_status : (s.mark).status = s.status := rfl
@[simp] theorem State.mark_traceIdx : (s.mark).traceIdx = s.traceIdx := rfl
@[simp] theorem State.mark_traceOut : (s.mark).traceOut = s.traceOut := rfl
@[simp] theorem State.mark_predLast : (s.mark).predLast = s.predLast := rfl
@[simp] theorem State.mark_predWaiting : (s.mark).predWaiting = s.predWaiting := rfl
@[simp] theorem State.mark_predCalls : (s.mark).predCalls = s.predCalls := rfl
@[simp] theorem State.mark_sideEffects : (s.mark).sideEffects = s.sideEffects := rfl
@[simp] theorem State.mark_ports : (s.mark).ports = s.ports := rfl
@[simp] theorem State.mark_requests : (s.mark).requests = s.requests := rfl
@[simp] theorem State.mark_reads : (s.mark).reads = s.reads := rfl
@[simp] theorem State.mark_agenda : (s.mark).agenda = s.agenda := rfl
@[simp] theorem State.mark_pinSeq : (s.mark).pinSeq = s.pinSeq := rfl

@[simp] theorem State.shortFrame_params : (s.shortFrame).params = s.params := rfl
@[simp] theorem State.shortFrame_phase : (s.shortFrame).phase = s.phase := rfl
@[simp] theorem State.shortFrame_prevClk : (s.shortFrame).prevClk = s.prevClk := rfl
@[simp] theorem State.shortFrame_bitcnt : (s.shortFrame).bitcnt = s.bitcnt := rfl
@[simp] theorem State.shortFrame_pbuf : (s.shortFrame).pbuf = s.pbuf := rfl
@[simp] theorem State.shortFrame_kbuf : (s.shortFrame).kbuf = s.kbuf := rfl
@[simp] theorem State.shortFrame_curCmd : (s.shortFrame).curCmd = s.curCmd := rfl
@[simp] theorem State.shortFrame_tMark : (s.shortFrame).tMark = s.tMark := rfl
@[simp] theorem State.shortFrame_now : (s.shortFrame).now = s.now := rfl
@[simp] theorem State.shortFrame_dataDrv : (s.shortFrame).dataDrv = s.dataDrv := rfl
@[simp] theorem State.shortFrame_dirClk : (s.shortFrame).dirClk = s.dirClk := rfl
@[simp] theorem State.shortFrame_dirData : (s.shortFrame).dirData = s.dirData := rfl
@[simp] theorem State.shortFrame_b2a : (s.shortFrame).b2a = s.b2a := rfl
@[simp] theorem State.shortFrame_a2b : (s.shortFrame).a2b = s.a2b := rfl
@[simp] theorem State.shortFrame_evlog : (s.shortFrame).evlog = s.evlog ++ [.shortFrame s.bitcnt] := rfl
@[simp] theorem State.shortFrame_strobes : (s.shortFrame).strobes = s.strobes ++ [.shortFrame s.bitcnt] := rfl
@[simp] theorem State.shortFrame_status : (s.shortFrame).status = s.status := rfl
@[simp] theorem State.shortFrame_traceIdx : (s.shortFrame).traceIdx = s.traceIdx := rfl
@[simp] theorem State.shortFrame_traceOut : (s.shortFrame).traceOut = s.traceOut := rfl
@[simp] theorem State.shortFrame_predLast : (s.shortFrame).predLast = s.predLast := rfl
@[simp] theorem State.shortFrame_predWaiting : (s.shortFrame).predWaiting = s.predWaiting := rfl
@[simp] theorem State.shortFrame_predCalls : (s.shortFrame).predCalls = s.predCalls := rfl
@[simp] theorem State.shortFrame_sideEffects : (s.shortFrame).sideEffects = s.sideEffects := rfl
@[simp] theorem State.shortFrame_ports : (s.shortFrame).ports = s.ports := rfl
@[simp] theorem State.shortFrame_requests : (s.shortFrame).requests = s.requests := rfl
@[simp] theorem State.shortFrame_reads : (s.shortFrame).reads = s.reads := rfl
@[simp] theorem State.shortFrame_agenda : (s.shortFrame).agenda = s.agenda := rfl
@[simp] theorem State.shortFrame_pinSeq : (s.shortFrame).pinSeq = s.pinSeq := rfl

@[simp] theorem State.validFrame_params : (s.validFrame).params = s.params := rfl
@[simp] theorem State.validFrame_phase : (s.validFrame).phase = s.phase := rfl
@[simp] theorem State.validFrame_prevClk : (s.validFrame).prevClk = s.prevClk := rfl
@[simp] theorem State.validFrame_bitcnt : (s.validFrame).bitcnt = s.bitcnt := rfl
@[simp] theorem State.validFrame_pbuf : (s.validFrame).pbuf = s.pbuf := rfl
@[simp] theorem State.validFrame_kbuf : (s.validFrame).kbuf = s.kbuf := rfl
@[simp] theorem State.validFrame_curCmd :
    (s.validFrame).curCmd = (s.a2b.pop s.params.capA2b).2.getD (s.params.cmd .idle) := rfl
@[simp] theorem State.validFrame_tMark : (s.validFrame).tMark = s.tMark := rfl
@[simp] theorem State.validFrame_now : (s.validFrame).now = s.now := rfl
@[simp] theorem State.validFrame_dataDrv : (s.validFrame).dataDrv = s.dataDrv := rfl
@[simp] theorem State.validFrame_dirClk : (s.validFrame).dirClk = s.dirClk := rfl
@[simp] theorem State.validFrame_dirData : (s.validFrame).dirData = s.dirData := rfl
@[simp] theorem State.validFrame_b2a :
    (s.validFrame).b2a = ((s.b2a.pushOverwrite s.params.capB2a s.pbuf).1.pushOverwrite s.params.capB2a s.kbuf).1 := rfl
@[simp] theorem State.validFrame_a2b : (s.validFrame).a2b = (s.a2b.pop s.params.capA2b).1 := rfl
@[simp] theorem State.validFrame_status : (s.validFrame).status = s.status := rfl
@[simp] theorem State.validFrame_traceIdx : (s.validFrame).traceIdx = s.traceIdx := rfl
@[simp] theorem State.validFrame_traceOut : (s.validFrame).traceOut = s.traceOut := rfl
@[simp] theorem State.validFrame_predLast : (s.validFrame).predLast = s.predLast := rfl
@[simp] theorem State.validFrame_predWaiting : (s.validFrame).predWaiting = s.predWaiting := rfl
@[simp] theorem State.validFrame_predCalls : (s.validFrame).predCalls = s.predCalls := rfl
@[simp] theorem State.validFrame_sideEffects : (s.validFrame).sideEffects = s.sideEffects := rfl
@[simp] theorem State.validFrame_ports : (s.validFrame).ports = s.ports := rfl
@[simp] theorem State.validFrame_requests : (s.validFrame).requests = s.requests := rfl
@[simp] theorem State.validFrame_reads : (s.validFrame).reads = s.reads := rfl
@[simp] theorem State.validFrame_agenda : (s.validFrame).agenda = s.agenda := rfl
@[simp] theorem State.validFrame_pinSeq : (s.validFrame).pinSeq = s.pinSeq := rfl

@[simp] theorem State.resetFrame_params : (s.resetFrame).params = s.params := rfl
@[simp] theorem State.resetFrame_phase : (s.resetFrame).phase = s.phase := rfl
@[simp] theorem State.resetFrame_prevClk : (s.resetFrame).prevClk = s.prevClk := rfl
@[simp] theorem State.resetFrame_bitcnt : (s.resetFrame).bitcnt = 0 := rfl
@[simp] theorem State.resetFrame_pbuf : (s.resetFrame).pbuf = fillWord s.params.bufFill := rfl
@[simp] theorem State.resetFrame_kbuf : (s.resetFrame).kbuf = fillWord s.params.bufFill := rfl
@[simp] theorem State.resetFrame_curCmd : (s.resetFrame).curCmd = s.curCmd := rfl
@[simp] theorem State.resetFrame_tMark : (s.resetFrame).tMark = s.now := rfl
@[simp] theorem State.resetFrame_now : (s.resetFrame).now = s.now := rfl
@[simp] theorem State.resetFrame_dataDrv : (s.resetFrame).dataDrv = s.dataDrv := rfl
@[simp] theorem State.resetFrame_dirClk : (s.resetFrame).dirClk = s.dirClk := rfl
@[simp] theorem State.resetFrame_dirData : (s.resetFrame).dirData = s.dirData := rfl
@[simp] theorem State.resetFrame_b2a : (s.resetFrame).b2a = s.b2a := rfl
@[simp] theorem State.resetFrame_a2b : (s.resetFrame).a2b = s.a2b := rfl
@[simp] theorem State.resetFrame_evlog : (s.resetFrame).evlog = s.evlog := rfl
@[simp] theorem State.resetFrame_strobes : (s.resetFrame).strobes = s.strobes := rfl
@[simp] theorem State.resetFrame_status : (s.resetFrame).status = s.status := rfl
@[simp] theorem State.resetFrame_traceIdx : (s.resetFrame).traceIdx = s.traceIdx := rfl
@[simp] theorem State.resetFrame_traceOut : (s.resetFrame).traceOut = s.traceOut := rfl
@[simp] theorem State.resetFrame_predLast : (s.resetFrame).predLast = s.predLast := rfl
@[simp] theorem State.resetFrame_predWaiting : (s.resetFrame).predWaiting = s.predWaiting := rfl
@[simp] theorem State.resetFrame_predCalls : (s.resetFrame).predCalls = s.predCalls := rfl
@[simp] theorem State.resetFrame_sideEffects : (s.resetFrame).sideEffects = s.sideEffects := rfl
@[simp] theorem State.resetFrame_ports : (s.resetFrame).ports = s.ports := rfl
@[simp] theorem State.resetFrame_requests : (s.resetFrame).requests = s.requests := rfl
@[simp] theorem State.resetFrame_reads : (s.resetFrame).reads = s.reads := rfl
@[simp] theorem State.resetFrame_agenda : (s.resetFrame).agenda = s.agenda := rfl
@[simp] theorem State.resetFrame_pinSeq : (s.resetFrame).pinSeq = s.pinSeq := rfl

@[simp] theorem State.drive_params : (s.drive).params = s.params := rfl
@[simp] theorem State.drive_phase : (s.drive).phase = s.phase := rfl
@[simp] theorem State.drive_prevClk : (s.drive).prevClk = s.prevClk := rfl
@[simp] theorem State.drive_bitcnt : (s.drive).bitcnt = s.bitcnt := rfl
@[simp] theorem State.drive_pbuf : (s.drive).pbuf = s.pbuf := rfl
@[simp] theorem State.drive_kbuf : (s.drive).kbuf = s.kbuf := rfl
@[simp] theorem State.drive_curCmd : (s.drive).curCmd = s.curCmd := rfl
@[simp] theorem State.drive_tMark : (s.drive).tMark = s.tMark := rfl
@[simp] theorem State.drive_now : (s.drive).now = s.now := rfl
@[simp] theorem State.drive_dataDrv : (s.drive).dataDrv = plevel s.nextBit := rfl
@[simp] theorem State.drive_dirClk : (s.drive).dirClk = s.dirClk := rfl
@[simp] theorem State.drive_dirData : (s.drive).dirData = s.dirData := rfl
@[simp] theorem State.drive_b2a : (s.drive).b2a = s.b2a := rfl
@[simp] theorem State.drive_a2b : (s.drive).a2b = s.a2b := rfl
@[simp] theorem State.drive_evlog : (s.drive).evlog = s.evlog := rfl
@[simp] theorem State.drive_strobes : (s.drive).strobes = s.strobes := rfl
@[simp] theorem State.drive_status : (s.drive).status = s.status := rfl
@[simp] theorem State.drive_traceIdx : (s.drive).traceIdx = s.traceIdx := rfl
@[simp] theorem State.drive_traceOut : (s.drive).traceOut = s.traceOut := rfl
@[simp] theorem State.drive_predLast : (s.drive).predLast = s.predLast := rfl
@[simp] theorem State.drive_predWaiting : (s.drive).predWaiting = s.predWaiting := rfl
@[simp] theorem State.drive_predCalls : (s.drive).predCalls = s.predCalls := rfl
@[simp] theorem State.drive_sideEffects : (s.drive).sideEffects = s.sideEffects := rfl
@[simp] theorem State.drive_ports : (s.drive).ports = s.ports := rfl
@[simp] theorem State.drive_requests : (s.drive).requests = s.requests := rfl
@[simp] theorem State.drive_reads : (s.drive).reads = s.reads := rfl
@[simp] theorem State.drive_agenda : (s.drive).agenda = s.agenda := rfl
@[simp] theorem State.drive_pinSeq : (s.drive).pinSeq = s.pinSeq := rfl

@[simp] theorem State.ksample_params (l : Level) : (s.ksample l).params = s.params := rfl
@[simp] theorem State.ksample_phase (l : Level) : (s.ksample l).phase = s.phase := rfl
@[simp] theorem State.ksample_prevClk (l : Level) : (s.ksample l).prevClk = s.prevClk := rfl
@[simp] theorem State.ksample_bitcnt (l : Level) : (s.ksample l).bitcnt = s.bitcnt := rfl
@[simp] theorem State.ksample_pbuf (l : Level) : (s.ksample l).pbuf = s.pbuf := rfl
@[simp] theorem State.ksample_kbuf (l : Level) :
    (s.ksample l).kbuf = if s.bitcnt < Config.frameWidth then s.kbuf.setBit s.bitcnt (lbit l) else s.kbuf := rfl
@[simp] theorem State.ksample_curCmd (l : Level) : (s.ksample l).curCmd = s.curCmd := rfl
@[simp] theorem State.ksample_tMark (l : Level) : (s.ksample l).tMark = s.tMark := rfl
@[simp] theorem State.ksample_now (l : Level) : (s.ksample l).now = s.now := rfl
@[simp] theorem State.ksample_dataDrv (l : Level) : (s.ksample l).dataDrv = s.dataDrv := rfl
@[simp] theorem State.ksample_dirClk (l : Level) : (s.ksample l).dirClk = s.dirClk := rfl
@[simp] theorem State.ksample_dirData (l : Level) : (s.ksample l).dirData = s.dirData := rfl
@[simp] theorem State.ksample_b2a (l : Level) : (s.ksample l).b2a = s.b2a := rfl
@[simp] theorem State.ksample_a2b (l : Level) : (s.ksample l).a2b = s.a2b := rfl
@[simp] theorem State.ksample_evlog (l : Level) : (s.ksample l).evlog = s.evlog := rfl
@[simp] theorem State.ksample_strobes (l : Level) : (s.ksample l).strobes = s.strobes := rfl
@[simp] theorem State.ksample_status (l : Level) : (s.ksample l).status = s.status := rfl
@[simp] theorem State.ksample_traceIdx (l : Level) : (s.ksample l).traceIdx = s.traceIdx := rfl
@[simp] theorem State.ksample_traceOut (l : Level) : (s.ksample l).traceOut = s.traceOut := rfl
@[simp] theorem State.ksample_predLast (l : Level) : (s.ksample l).predLast = s.predLast := rfl
@[simp] theorem State.ksample_predWaiting (l : Level) : (s.ksample l).predWaiting = s.predWaiting := rfl
@[simp] theorem State.ksample_predCalls (l : Level) : (s.ksample l).predCalls = s.predCalls := rfl
@[simp] theorem State.ksample_sideEffects (l : Level) : (s.ksample l).sideEffects = s.sideEffects := rfl
@[simp] theorem State.ksample_ports (l : Level) : (s.ksample l).ports = s.ports := rfl
@[simp] theorem State.ksample_requests (l : Level) : (s.ksample l).requests = s.requests := rfl
@[simp] theorem State.ksample_reads (l : Level) : (s.ksample l).reads = s.reads := rfl
@[simp] theorem State.ksample_agenda (l : Level) : (s.ksample l).agenda = s.agenda := rfl
@[simp] theorem State.ksample_pinSeq (l : Level) : (s.ksample l).pinSeq = s.pinSeq := rfl

@[simp] theorem State.release_params : (s.release).params = s.params := rfl
@[simp] theorem State.release_phase : (s.release).phase = s.phase := rfl
@[simp] theorem State.release_prevClk : (s.release).prevClk = s.prevClk := rfl
@[simp] theorem State.release_bitcnt : (s.release).bitcnt = s.bitcnt := rfl
@[simp] theorem State.release_pbuf : (s.release).pbuf = s.pbuf := rfl
@[simp] theorem State.release_kbuf : (s.release).kbuf = s.kbuf := rfl
@[simp] theorem State.release_curCmd : (s.release).curCmd = s.curCmd := rfl
@[simp] theorem State.release_tMark : (s.release).tMark = s.tMark := rfl
@[simp] theorem State.release_now : (s.release).now = s.now := rfl
@[simp] theorem State.release_dataDrv : (s.release).dataDrv = .low := rfl
@[simp] theorem State.release_dirClk : (s.release).dirClk = s.dirClk := rfl
@[simp] theorem State.release_dirData : (s.release).dirData = s.dirData := rfl
@[simp] theorem State.release_b2a : (s.release).b2a = s.b2a := rfl
@[simp] theorem State.release_a2b : (s.release).a2b = s.a2b := rfl
@[simp] theorem State.release_evlog : (s.release).evlog = s.evlog := rfl
@[simp] theorem State.release_strobes : (s.release).strobes = s.strobes := rfl
@[simp] theorem State.release_status : (s.release).status = s.status := rfl
@[simp] theorem State.release_traceIdx : (s.release).traceIdx = s.traceIdx := rfl
@[simp] theorem State.release_traceOut : (s.release).traceOut = s.traceOut := rfl
@[simp] theorem State.release_predLast : (s.release).predLast = s.predLast := rfl
@[simp] theorem State.release_predWaiting : (s.release).predWaiting = s.predWaiting := rfl
@[simp] theorem State.release_predCalls : (s.release).predCalls = s.predCalls := rfl
@[simp] theorem State.release_sideEffects : (s.release).sideEffects = s.sideEffects := rfl
@[simp] theorem State.release_ports : (s.release).ports = s.ports := rfl
@[simp] theorem State.release_requests : (s.release).requests = s.requests := rfl
@[simp] theorem State.release_reads : (s.release).reads = s.reads := rfl
@[simp] theorem State.release_agenda : (s.release).agenda = s.agenda := rfl
@[simp] theorem State.release_pinSeq : (s.release).pinSeq = s.pinSeq := rfl

@[simp] theorem State.psample_params (l : Level) : (s.psample l).params = s.params := rfl
@[simp] theorem State.psample_phase (l : Level) : (s.psample l).phase = s.phase := rfl
@[simp] theorem State.psample_prevClk (l : Level) : (s.psample l).prevClk = s.prevClk := rfl
@[simp] theorem State.psample_bitcnt (l : Level) :
    (s.psample l).bitcnt = if s.bitcnt < Config.frameWidth then s.bitcnt + 1 else s.bitcnt := rfl
@[simp] theorem State.psample_pbuf (l : Level) :
    (s.psample l).pbuf = if s.bitcnt < Config.frameWidth then s.pbuf.setBit s.bitcnt (lbit l) else s.pbuf := rfl
@[simp] theorem State.psample_kbuf (l : Level) : (s.psample l).kbuf = s.kbuf := rfl
@[simp] theorem State.psample_curCmd (l : Level) : (s.psample l).curCmd = s.curCmd := rfl
@[simp] theorem State.psample_tMark (l : Level) : (s.psample l).tMark = s.tMark := rfl
@[simp] theorem State.psample_now (l : Level) : (s.psample l).now = s.now := rfl
@[simp] theorem State.psample_dataDrv (l : Level) : (s.psample l).dataDrv = s.dataDrv := rfl
@[simp] theorem State.psample_dirClk (l : Level) : (s.psample l).dirClk = s.dirClk := rfl
@[simp] theorem State.psample_dirData (l : Level) : (s.psample l).dirData = s.dirData := rfl
@[simp] theorem State.psample_b2a (l : Level) : (s.psample l).b2a = s.b2a := rfl
@[simp] theorem State.psample_a2b (l : Level) : (s.psample l).a2b = s.a2b := rfl
@[simp] theorem State.psample_evlog (l : Level) : (s.psample l).evlog = s.evlog := rfl
@[simp] theorem State.psample_strobes (l : Level) : (s.psample l).strobes = s.strobes := rfl
@[simp] theorem State.psample_status (l : Level) : (s.psample l).status = s.status := rfl
@[simp] theorem State.psample_traceIdx (l : Level) : (s.psample l).traceIdx = s.traceIdx := rfl
@[simp] theorem State.psample_traceOut (l : Level) : (s.psample l).traceOut = s.traceOut := rfl
@[simp] theorem State.psample_predLast (l : Level) : (s.psample l).predLast = s.predLast := rfl
@[simp] theorem State.psample_predWaiting (l : Level) : (s.psample l).predWaiting = s.predWaiting := rfl
@[simp] theorem State.psample_predCalls (l : Level) : (s.psample l).predCalls = s.predCalls := rfl
@[simp] theorem State.psample_sideEffects (l : Level) : (s.psample l).sideEffects = s.sideEffects := rfl
@[simp] theorem State.psample_ports (l : Level) : (s.psample l).ports = s.ports := rfl
@[simp] theorem State.psample_requests (l : Level) : (s.psample l).requests = s.requests := rfl
@[simp] theorem State.psample_reads (l : Level) : (s.psample l).reads = s.reads := rfl
@[simp] theorem State.psample_agenda (l : Level) : (s.psample l).agenda = s.agenda := rfl
@[simp] theorem State.psample_pinSeq (l : Level) : (s.psample l).pinSeq = s.pinSeq := rfl

@[simp] theorem State.takeFall_params : (s.takeFall).params = s.params := rfl
@[simp] theorem State.takeFall_phase : (s.takeFall).phase = .pwait Config.nP := rfl
@[simp] theorem State.takeFall_prevClk : (s.takeFall).prevClk = .low := rfl
@[simp] theorem State.takeFall_bitcnt : (s.takeFall).bitcnt = s.bitcnt := rfl
@[simp] theorem State.takeFall_pbuf : (s.takeFall).pbuf = s.pbuf := rfl
@[simp] theorem State.takeFall_kbuf : (s.takeFall).kbuf = s.kbuf := rfl
@[simp] theorem State.takeFall_curCmd : (s.takeFall).curCmd = s.curCmd := rfl
@[simp] theorem State.takeFall_tMark : (s.takeFall).tMark = s.tMark := rfl
@[simp] theorem State.takeFall_now : (s.takeFall).now = s.now := rfl
@[simp] theorem State.takeFall_dataDrv : (s.takeFall).dataDrv = s.dataDrv := rfl
@[simp] theorem State.takeFall_dirClk : (s.takeFall).dirClk = s.dirClk := rfl
@[simp] theorem State.takeFall_dirData : (s.takeFall).dirData = s.dirData := rfl
@[simp] theorem State.takeFall_b2a : (s.takeFall).b2a = s.b2a := rfl
@[simp] theorem State.takeFall_a2b : (s.takeFall).a2b = s.a2b := rfl
@[simp] theorem State.takeFall_evlog : (s.takeFall).evlog = s.evlog := rfl
@[simp] theorem State.takeFall_strobes : (s.takeFall).strobes = s.strobes := rfl
@[simp] theorem State.takeFall_status : (s.takeFall).status = s.status := rfl
@[simp] theorem State.takeFall_traceIdx : (s.takeFall).traceIdx = s.traceIdx := rfl
@[simp] theorem State.takeFall_traceOut : (s.takeFall).traceOut = s.traceOut := rfl
@[simp] theorem State.takeFall_predLast : (s.takeFall).predLast = s.predLast := rfl
@[simp] theorem State.takeFall_predWaiting : (s.takeFall).predWaiting = s.predWaiting := rfl
@[simp] theorem State.takeFall_predCalls : (s.takeFall).predCalls = s.predCalls := rfl
@[simp] theorem State.takeFall_sideEffects : (s.takeFall).sideEffects = s.sideEffects := rfl
@[simp] theorem State.takeFall_ports : (s.takeFall).ports = s.ports := rfl
@[simp] theorem State.takeFall_requests : (s.takeFall).requests = s.requests := rfl
@[simp] theorem State.takeFall_reads : (s.takeFall).reads = s.reads := rfl
@[simp] theorem State.takeFall_agenda : (s.takeFall).agenda = s.agenda := rfl
@[simp] theorem State.takeFall_pinSeq : (s.takeFall).pinSeq = s.pinSeq := rfl

@[simp] theorem State.setStatus_params (st : PanelStatus) : (s.setStatus st).params = s.params := rfl
@[simp] theorem State.setStatus_phase (st : PanelStatus) : (s.setStatus st).phase = s.phase := rfl
@[simp] theorem State.setStatus_prevClk (st : PanelStatus) : (s.setStatus st).prevClk = s.prevClk := rfl
@[simp] theorem State.setStatus_bitcnt (st : PanelStatus) : (s.setStatus st).bitcnt = s.bitcnt := rfl
@[simp] theorem State.setStatus_pbuf (st : PanelStatus) : (s.setStatus st).pbuf = s.pbuf := rfl
@[simp] theorem State.setStatus_kbuf (st : PanelStatus) : (s.setStatus st).kbuf = s.kbuf := rfl
@[simp] theorem State.setStatus_curCmd (st : PanelStatus) : (s.setStatus st).curCmd = s.curCmd := rfl
@[simp] theorem State.setStatus_tMark (st : PanelStatus) : (s.setStatus st).tMark = s.tMark := rfl
@[simp] theorem State.setStatus_now (st : PanelStatus) : (s.setStatus st).now = s.now := rfl
@[simp] theorem State.setStatus_dataDrv (st : PanelStatus) : (s.setStatus st).dataDrv = s.dataDrv := rfl
@[simp] theorem State.setStatus_dirClk (st : PanelStatus) : (s.setStatus st).dirClk = s.dirClk := rfl
@[simp] theorem State.setStatus_dirData (st : PanelStatus) : (s.setStatus st).dirData = s.dirData := rfl
@[simp] theorem State.setStatus_b2a (st : PanelStatus) : (s.setStatus st).b2a = s.b2a := rfl
@[simp] theorem State.setStatus_a2b (st : PanelStatus) : (s.setStatus st).a2b = s.a2b := rfl
@[simp] theorem State.setStatus_evlog (st : PanelStatus) : (s.setStatus st).evlog = s.evlog := rfl
@[simp] theorem State.setStatus_strobes (st : PanelStatus) : (s.setStatus st).strobes = s.strobes := rfl
@[simp] theorem State.setStatus_status (st : PanelStatus) : (s.setStatus st).status = st := rfl
@[simp] theorem State.setStatus_traceIdx (st : PanelStatus) : (s.setStatus st).traceIdx = s.traceIdx := rfl
@[simp] theorem State.setStatus_traceOut (st : PanelStatus) : (s.setStatus st).traceOut = s.traceOut := rfl
@[simp] theorem State.setStatus_predLast (st : PanelStatus) : (s.setStatus st).predLast = s.predLast := rfl
@[simp] theorem State.setStatus_predWaiting (st : PanelStatus) : (s.setStatus st).predWaiting = s.predWaiting := rfl
@[simp] theorem State.setStatus_predCalls (st : PanelStatus) : (s.setStatus st).predCalls = s.predCalls := rfl
@[simp] theorem State.setStatus_sideEffects (st : PanelStatus) : (s.setStatus st).sideEffects = s.sideEffects := rfl
@[simp] theorem State.setStatus_ports (st : PanelStatus) : (s.setStatus st).ports = s.ports := rfl
@[simp] theorem State.setStatus_requests (st : PanelStatus) : (s.setStatus st).requests = s.requests := rfl
@[simp] theorem State.setStatus_reads (st : PanelStatus) : (s.setStatus st).reads = s.reads.updated s.status := rfl
@[simp] theorem State.setStatus_agenda (st : PanelStatus) : (s.setStatus st).agenda = s.agenda := rfl
@[simp] theorem State.setStatus_pinSeq (st : PanelStatus) : (s.setStatus st).pinSeq = s.pinSeq := rfl

@[simp] theorem State.consume_params (w : Word) (t : Nat) : (s.consume w t).params = s.params := rfl
@[simp] theorem State.consume_phase (w : Word) (t : Nat) : (s.consume w t).phase = s.phase := rfl
@[simp] theorem State.consume_prevClk (w : Word) (t : Nat) : (s.consume w t).prevClk = s.prevClk := rfl
@[simp] theorem State.consume_bitcnt (w : Word) (t : Nat) : (s.consume w t).bitcnt = s.bitcnt := rfl
@[simp] theorem State.consume_pbuf (w : Word) (t : Nat) : (s.consume w t).pbuf = s.pbuf := rfl
@[simp] theorem State.consume_kbuf (w : Word) (t : Nat) : (s.consume w t).kbuf = s.kbuf := rfl
@[simp] theorem State.consume_curCmd (w : Word) (t : Nat) : (s.consume w t).curCmd = s.curCmd := rfl
@[simp] theorem State.consume_tMark (w : Word) (t : Nat) : (s.consume w t).tMark = s.tMark := rfl
@[simp] theorem State.consume_now (w : Word) (t : Nat) : (s.consume w t).now = s.now := rfl
@[simp] theorem State.consume_dataDrv (w : Word) (t : Nat) : (s.consume w t).dataDrv = s.dataDrv := rfl
@[simp] theorem State.consume_dirClk (w : Word) (t : Nat) : (s.consume w t).dirClk = s.dirClk := rfl
@[simp] theorem State.consume_dirData (w : Word) (t : Nat) : (s.consume w t).dirData = s.dirData := rfl
@[simp] theorem State.consume_b2a (w : Word) (t : Nat) : (s.consume w t).b2a = s.b2a := rfl
@[simp] theorem State.consume_a2b (w : Word) (t : Nat) : (s.consume w t).a2b = s.a2b := rfl
@[simp] theorem State.consume_evlog (w : Word) (t : Nat) : (s.consume w t).evlog = s.evlog := rfl
@[simp] theorem State.consume_strobes (w : Word) (t : Nat) : (s.consume w t).strobes = s.strobes := rfl
@[simp] theorem State.consume_status (w : Word) (t : Nat) :
    (s.consume w t).status = s.status.observe (decodeWord s.params w) t := rfl
@[simp] theorem State.consume_traceIdx (w : Word) (t : Nat) : (s.consume w t).traceIdx = s.traceIdx + 1 := rfl
@[simp] theorem State.consume_traceOut (w : Word) (t : Nat) :
    (s.consume w t).traceOut = s.traceOut ++ [traceLine (s.traceIdx + 1) (decodeWord s.params w).message w] := rfl
@[simp] theorem State.consume_predLast (w : Word) (t : Nat) : (s.consume w t).predLast = s.predLast := rfl
@[simp] theorem State.consume_predWaiting (w : Word) (t : Nat) : (s.consume w t).predWaiting = s.predWaiting := rfl
@[simp] theorem State.consume_predCalls (w : Word) (t : Nat) : (s.consume w t).predCalls = s.predCalls := rfl
@[simp] theorem State.consume_sideEffects (w : Word) (t : Nat) : (s.consume w t).sideEffects = s.sideEffects := rfl
@[simp] theorem State.consume_ports (w : Word) (t : Nat) : (s.consume w t).ports = s.ports := rfl
@[simp] theorem State.consume_requests (w : Word) (t : Nat) : (s.consume w t).requests = s.requests := rfl
@[simp] theorem State.consume_reads (w : Word) (t : Nat) : (s.consume w t).reads = s.reads.updated s.status := rfl
@[simp] theorem State.consume_agenda (w : Word) (t : Nat) : (s.consume w t).agenda = s.agenda := rfl
@[simp] theorem State.consume_pinSeq (w : Word) (t : Nat) : (s.consume w t).pinSeq = s.pinSeq := rfl

/-! ### Steps with a branch -/

@[simp] theorem State.finalise_params : s.finalise.params = s.params := by unfold State.finalise; split <;> rfl
@[simp] theorem State.finalise_phase : s.finalise.phase = s.phase := by unfold State.finalise; split <;> rfl
@[simp] theorem State.finalise_prevClk : s.finalise.prevClk = s.prevClk := by unfold State.finalise; split <;> rfl
@[simp] theorem State.finalise_bitcnt : s.finalise.bitcnt = 0 := by unfold State.finalise; split <;> rfl
@[simp] theorem State.finalise_pbuf : s.finalise.pbuf = fillWord s.params.bufFill := by unfold State.finalise; split <;> rfl
@[simp] theorem State.finalise_kbuf : s.finalise.kbuf = fillWord s.params.bufFill := by unfold State.finalise; split <;> rfl
@[simp] theorem State.finalise_tMark : s.finalise.tMark = s.now := by unfold State.finalise; split <;> rfl
@[simp] theorem State.finalise_now : s.finalise.now = s.now := by unfold State.finalise; split <;> rfl
@[simp] theorem State.finalise_dataDrv : s.finalise.dataDrv = s.dataDrv := by unfold State.finalise; split <;> rfl
@[simp] theorem State.finalise_dirClk : s.finalise.dirClk = s.dirClk := by unfold State.finalise; split <;> rfl
@[simp] theorem State.finalise_dirData : s.finalise.dirData = s.dirData := by unfold State.finalise; split <;> rfl
@[simp] theorem State.finalise_status : s.finalise.status = s.status := by unfold State.finalise; split <;> rfl
@[simp] theorem State.finalise_traceIdx : s.finalise.traceIdx = s.traceIdx := by unfold State.finalise; split <;> rfl
@[simp] theorem State.finalise_traceOut : s.finalise.traceOut = s.traceOut := by unfold State.finalise; split <;> rfl
@[simp] theorem State.finalise_predLast : s.finalise.predLast = s.predLast := by unfold State.finalise; split <;> rfl
@[simp] theorem State.finalise_predWaiting : s.finalise.predWaiting = s.predWaiting := by unfold State.finalise; split <;> rfl
@[simp] theorem State.finalise_predCalls : s.finalise.predCalls = s.predCalls := by unfold State.finalise; split <;> rfl
@[simp] theorem State.finalise_sideEffects : s.finalise.sideEffects = s.sideEffects := by unfold State.finalise; split <;> rfl
@[simp] theorem State.finalise_ports : s.finalise.ports = s.ports := by unfold State.finalise; split <;> rfl
@[simp] theorem State.finalise_requests : s.finalise.requests = s.requests := by unfold State.finalise; split <;> rfl
@[simp] theorem State.finalise_reads : s.finalise.reads = s.reads := by unfold State.finalise; split <;> rfl
@[simp] theorem State.finalise_agenda : s.finalise.agenda = s.agenda := by unfold State.finalise; split <;> rfl
@[simp] theorem State.finalise_pinSeq : s.finalise.pinSeq = s.pinSeq := by unfold State.finalise; split <;> rfl

@[simp] theorem State.riseWith_params (gap : Bool) : (s.riseWith gap).params = s.params := by cases gap <;> simp [State.riseWith]
@[simp] theorem State.riseWith_phase (gap : Bool) : (s.riseWith gap).phase = s.phase := by cases gap <;> simp [State.riseWith]
@[simp] theorem State.riseWith_prevClk (gap : Bool) : (s.riseWith gap).prevClk = s.prevClk := by cases gap <;> simp [State.riseWith]
@[simp] theorem State.riseWith_now (gap : Bool) : (s.riseWith gap).now = s.now := by cases gap <;> simp [State.riseWith]
@[simp] theorem State.riseWith_dirClk (gap : Bool) : (s.riseWith gap).dirClk = s.dirClk := by cases gap <;> simp [State.riseWith]
@[simp] theorem State.riseWith_dirData (gap : Bool) : (s.riseWith gap).dirData = s.dirData := by cases gap <;> simp [State.riseWith]
@[simp] theorem State.riseWith_status (gap : Bool) : (s.riseWith gap).status = s.status := by cases gap <;> simp [State.riseWith]
@[simp] theorem State.riseWith_traceIdx (gap : Bool) : (s.riseWith gap).traceIdx = s.traceIdx := by cases gap <;> simp [State.riseWith]
@[simp] theorem State.riseWith_traceOut (gap : Bool) : (s.riseWith gap).traceOut = s.traceOut := by cases gap <;> simp [State.riseWith]
@[simp] theorem State.riseWith_predLast (gap : Bool) : (s.riseWith gap).predLast = s.predLast := by cases gap <;> simp [State.riseWith]
@[simp] theorem State.riseWith_predWaiting (gap : Bool) : (s.riseWith gap).predWaiting = s.predWaiting := by cases gap <;> simp [State.riseWith]
@[simp] theorem State.riseWith_predCalls (gap : Bool) : (s.riseWith gap).predCalls = s.predCalls := by cases gap <;> simp [State.riseWith]
@[simp] theorem State.riseWith_sideEffects (gap : Bool) : (s.riseWith gap).sideEffects = s.sideEffects := by cases gap <;> simp [State.riseWith]
@[simp] theorem State.riseWith_ports (gap : Bool) : (s.riseWith gap).ports = s.ports := by cases gap <;> simp [State.riseWith]
@[simp] theorem State.riseWith_requests (gap : Bool) : (s.riseWith gap).requests = s.requests := by cases gap <;> simp [State.riseWith]
@[simp] theorem State.riseWith_reads (gap : Bool) : (s.riseWith gap).reads = s.reads := by cases gap <;> simp [State.riseWith]
@[simp] theorem State.riseWith_agenda (gap : Bool) : (s.riseWith gap).agenda = s.agenda := by cases gap <;> simp [State.riseWith]
@[simp] theorem State.riseWith_pinSeq (gap : Bool) : (s.riseWith gap).pinSeq = s.pinSeq := by cases gap <;> simp [State.riseWith]

@[simp] theorem State.riseWith_bitcnt (gap : Bool) : (s.riseWith gap).bitcnt = if gap then 0 else s.bitcnt := by
  cases gap <;> simp [State.riseWith]
@[simp] theorem State.riseWith_pbuf (gap : Bool) :
    (s.riseWith gap).pbuf = if gap then fillWord s.params.bufFill else s.pbuf := by
  cases gap <;> simp [State.riseWith]
@[simp] theorem State.riseWith_kbuf (gap : Bool) :
    (s.riseWith gap).kbuf = if gap then fillWord s.params.bufFill else s.kbuf := by
  cases gap <;> simp [State.riseWith]
@[simp] theorem State.riseWith_b2a (gap : Bool) :
    (s.riseWith gap).b2a = if gap then s.finalise.b2a else s.b2a := by
  cases gap <;> simp [State.riseWith]
@[simp] theorem State.riseWith_a2b (gap : Bool) :
    (s.riseWith gap).a2b = if gap then s.finalise.a2b else s.a2b := by
  cases gap <;> simp [State.riseWith]
@[simp] theorem State.riseWith_curCmd (gap : Bool) :
    (s.riseWith gap).curCmd = if gap then s.finalise.curCmd else s.curCmd := by
  cases gap <;> simp [State.riseWith]
@[simp] theorem State.riseWith_evlog (gap : Bool) :
    (s.riseWith gap).evlog = if gap then s.finalise.evlog else s.evlog := by
  cases gap <;> simp [State.riseWith]
@[simp] theorem State.riseWith_tMark (gap : Bool) :
    (s.riseWith gap).tMark = if s.params.markEveryEdge || gap then s.now else s.tMark := by
  cases gap <;> cases h : s.params.markEveryEdge <;> simp [State.riseWith, h]
@[simp] theorem State.finalise_b2a :
    s.finalise.b2a = if s.isShort then s.b2a else s.validFrame.b2a := by
  unfold State.finalise; split <;> simp [*]
@[simp] theorem State.finalise_a2b :
    s.finalise.a2b = if s.isShort then s.a2b else (s.a2b.pop s.params.capA2b).1 := by
  unfold State.finalise; split <;> simp [*]
@[simp] theorem State.finalise_curCmd :
    s.finalise.curCmd = if s.isShort then s.curCmd else (s.a2b.pop s.params.capA2b).2.getD (s.params.cmd .idle) := by
  unfold State.finalise; split <;> simp [*]

@[simp] theorem State.rise_params : s.rise.params = s.params := s.riseWith_params _
@[simp] theorem State.rise_prevClk : s.rise.prevClk = s.prevClk := s.riseWith_prevClk _
@[simp] theorem State.rise_phase : s.rise.phase = s.phase := s.riseWith_phase _
@[simp] theorem State.rise_now : s.rise.now = s.now := s.riseWith_now _
@[simp] theorem State.rise_dirClk : s.rise.dirClk = s.dirClk := s.riseWith_dirClk _
@[simp] theorem State.rise_dirData : s.rise.dirData = s.dirData := s.riseWith_dirData _
@[simp] theorem State.rise_status : s.rise.status = s.status := s.riseWith_status _
@[simp] theorem State.rise_traceIdx : s.rise.traceIdx = s.traceIdx := s.riseWith_traceIdx _
@[simp] theorem State.rise_traceOut : s.rise.traceOut = s.traceOut := s.riseWith_traceOut _
@[simp] theorem State.rise_predLast : s.rise.predLast = s.predLast := s.riseWith_predLast _
@[simp] theorem State.rise_predWaiting : s.rise.predWaiting = s.predWaiting := s.riseWith_predWaiting _
@[simp] theorem State.rise_predCalls : s.rise.predCalls = s.predCalls := s.riseWith_predCalls _
@[simp] theorem State.rise_sideEffects : s.rise.sideEffects = s.sideEffects := s.riseWith_sideEffects _
@[simp] theorem State.rise_ports : s.rise.ports = s.ports := s.riseWith_ports _
@[simp] theorem State.rise_requests : s.rise.requests = s.requests := s.riseWith_requests _
@[simp] theorem State.rise_reads : s.rise.reads = s.reads := s.riseWith_reads _
@[simp] theorem State.rise_agenda : s.rise.agenda = s.agenda := s.riseWith_agenda _
@[simp] theorem State.rise_pinSeq : s.rise.pinSeq = s.pinSeq := s.riseWith_pinSeq _

@[simp] theorem State.takeRise_params : s.takeRise.params = s.params := by simp [State.takeRise]
@[simp] theorem State.takeRise_now : s.takeRise.now = s.now := by simp [State.takeRise]
@[simp] theorem State.takeRise_dirClk : s.takeRise.dirClk = s.dirClk := by simp [State.takeRise]
@[simp] theorem State.takeRise_dirData : s.takeRise.dirData = s.dirData := by simp [State.takeRise]
@[simp] theorem State.takeRise_status : s.takeRise.status = s.status := by simp [State.takeRise]
@[simp] theorem State.takeRise_traceIdx : s.takeRise.traceIdx = s.traceIdx := by simp [State.takeRise]
@[simp] theorem State.takeRise_traceOut : s.takeRise.traceOut = s.traceOut := by simp [State.takeRise]
@[simp] theorem State.takeRise_predLast : s.takeRise.predLast = s.predLast := by simp [State.takeRise]
@[simp] theorem State.takeRise_predWaiting : s.takeRise.predWaiting = s.predWaiting := by simp [State.takeRise]
@[simp] theorem State.takeRise_predCalls : s.takeRise.predCalls = s.predCalls := by simp [State.takeRise]
@[simp] theorem State.takeRise_sideEffects : s.takeRise.sideEffects = s.sideEffects := by simp [State.takeRise]
@[simp] theorem State.takeRise_ports : s.takeRise.ports = s.ports := by simp [State.takeRise]
@[simp] theorem State.takeRise_requests : s.takeRise.requests = s.requests := by simp [State.takeRise]
@[simp] theorem State.takeRise_reads : s.takeRise.reads = s.reads := by simp [State.takeRise]
@[simp] theorem State.takeRise_agenda : s.takeRise.agenda = s.agenda := by simp [State.takeRise]
@[simp] theorem State.takeRise_pinSeq : s.takeRise.pinSeq = s.pinSeq := by simp [State.takeRise]
@[simp] theorem State.takeRise_prevClk : s.takeRise.prevClk = .high := by simp [State.takeRise]
@[simp] theorem State.takeRise_phase : s.takeRise.phase = .kwait s.params.nK := rfl

end Sys2Proof.Machine
end

