-- ==== Sys2Proof/Laws/Agents.lean ====
section
/-! SUPPORT. What the agents around the block do, once each: the pushes of a request, the tracker, the texts of a response, the
status, its readers, the predictor; and what `step` is for each kind of next action. -/

namespace Sys2Proof.Machine

/-! ### The step, by the next action -/

theorem step_nil {s : State} (h : s.agenda = []) : step s = .next (s.begin []).freeTick := by
  unfold step; rw [h]

theorem step_op {s : State} {bytes : List Byte} {rest : List Action} {i : Instr} (h : s.agenda = .op bytes :: rest)
    (hd : decode bytes = .ok i) : step s = exec i (s.begin rest) := by
  unfold step; rw [h]; simp only [hd]

theorem step_op_error {s : State} {bytes : List Byte} {rest : List Action} {e : DecodeError}
    (h : s.agenda = .op bytes :: rest) (hd : decode bytes = .error e) : step s = .refused (.notAnOperation bytes) := by
  unfold step; rw [h]; simp only [hd]

theorem step_request {s : State} {body : List Byte} {rest : List Action} (h : s.agenda = .request body :: rest) :
    step s = .next ((s.begin rest).accept (Request.ofRow (classifyRequest body))) := by
  unfold step; rw [h]; rfl

theorem step_producerStep {s : State} {pick : List Nat} {rest : List Action} (h : s.agenda = .producerStep pick :: rest) :
    step s = .next ((s.begin rest).producerStep pick) := by
  unfold step; rw [h]; rfl

theorem step_readBegin {s : State} {who : Reader} {rest : List Action} (h : s.agenda = .readBegin who :: rest) :
    step s = .next ((s.begin rest).readBegin who) := by
  unfold step; rw [h]; rfl

theorem step_decoderStep {s : State} {t : Nat} {rest : List Action} (h : s.agenda = .decoderStep t :: rest) :
    step s = .next ((s.begin rest).decoderStep t) := by
  unfold step; rw [h]; rfl

theorem step_predictorWake {s : State} {pick : List Nat} {utc : Text} {answer : Option (List Text)} {rest : List Action}
    (h : s.agenda = .predictorWake pick utc answer :: rest) :
    step s = .next ((s.begin rest).predictorWake pick utc answer) := by
  unfold step; rw [h]; rfl

theorem step_predictorCall {s : State} {pick : List Nat} {utc : Text} {rest : List Action}
    (h : s.agenda = .predictorCall pick utc :: rest) : step s = .next ((s.begin rest).predictorCall pick utc) := by
  unfold step; rw [h]; rfl

theorem step_predictorReturn {s : State} {answer : Option (List Text)} {rest : List Action}
    (h : s.agenda = .predictorReturn answer :: rest) : step s = .next ((s.begin rest).predictorReturn answer) := by
  unfold step; rw [h]; rfl

theorem step_rst {s : State} {rest : List Action} (h : s.agenda = .rst :: rest) : step s = .next (s.begin rest).applyReset := by
  unfold step; rw [h]; rfl

theorem step_fatal {s : State} {f : Fatal} {rest : List Action} (h : s.agenda = .fatal f :: rest) :
    step s = .fault f.fault := by
  unfold step; rw [h]; rfl

/-- A run of steps is its first step and the rest of the run. -/
theorem stepAll_next {n : Nat} {s t : State} (h : step s = .next t) : stepAll (n + 1) s = stepAll n t := by
  rw [stepAll, h]

/-! ### Snapshots (R80) -/

theorem Reads.older_idle {who : Reader} {r : Reads} (h : r.progress who = none) : r.older who = r.updating.toList := by
  simp [Reads.older, h]

theorem Reads.older_busy {who : Reader} {r : Reads} {l : List PanelStatus} (h : r.progress who = some l) : r.older who = l := by
  simp [Reads.older, h]

@[simp] theorem Reads.set_updating (who : Reader) (o : Option (List PanelStatus)) (r : Reads) :
    (r.set who o).updating = r.updating := by
  cases who <;> rfl

@[simp] theorem Reads.set_progress (who : Reader) (o : Option (List PanelStatus)) (r : Reads) : (r.set who o).progress who = o := by
  cases who <;> rfl

theorem Reads.set_progress_other {who who' : Reader} (o : Option (List PanelStatus)) (r : Reads) (h : who' ≠ who) :
    (r.set who o).progress who' = r.progress who' := by
  cases who <;> cases who' <;> first | rfl | exact absurd rfl h

@[simp] theorem Reads.updated_progress (who : Reader) (old : PanelStatus) (r : Reads) :
    (r.updated old).progress who = (r.progress who).map (old :: ·) := by
  cases who <;> rfl

@[simp] theorem Reads.settled_progress (who : Reader) (r : Reads) : r.settled.progress who = r.progress who := by
  cases who <;> rfl

@[simp] theorem Reads.settled_updated (old : PanelStatus) (r : Reads) : r.settled.updated old = r.updated old := rfl

/-- A version is now's or an older one, and any of these is some pick's. -/
theorem PanelStatus.version_mem (pick : List Nat) (older : List PanelStatus) (now : PanelStatus) (i : Nat) :
    now.version pick older i ∈ now :: older := by
  unfold PanelStatus.version
  rcases Nat.lt_or_ge (pick.getD i 0) (now :: older).length with h | h
  · rw [List.getD_eq_getElem _ _ h]; exact List.getElem_mem h
  · rw [List.getD_eq_default _ _ h]; exact List.mem_cons_self

/-- Any choice of a version for each field is some pick's. -/
theorem PanelStatus.exists_pick (older : List PanelStatus) (now : PanelStatus) (n : Nat) (f : Nat → Nat) :
    ∃ pick, ∀ i, i < n → now.version pick older i = (now :: older).getD (f i) now := by
  refine ⟨(List.range n).map f, fun i hi => ?_⟩
  unfold PanelStatus.version
  rw [List.getD_eq_getElem ((List.range n).map f) 0 (by simpa using hi)]
  simp

/-- A value some version has is that of the version at some index. -/
theorem PanelStatus.index_of_mem {α : Type} {f : PanelStatus → α} {x : α} {older : List PanelStatus} {now : PanelStatus}
    (h : x ∈ (now :: older).map f) : ∃ k, f ((now :: older).getD k now) = x := by
  obtain ⟨v, hv, rfl⟩ := List.mem_map.1 h
  obtain ⟨k, hk, rfl⟩ := List.mem_iff_getElem.1 hv
  exact ⟨k, by rw [List.getD_eq_getElem _ _ hk]⟩

/-- The timestamps of a snapshot, zone by zone. -/
theorem PanelStatus.mixture_zones (pick : List Nat) (older : List PanelStatus) (now : PanelStatus) (j : Fin 32) :
    (PanelStatus.mixture pick older now).zones[j]
      = { act := (now.version pick older (6 + 2 * j)).zones[j].act
          deact := (now.version pick older (7 + 2 * j)).zones[j].deact } := by
  simp [PanelStatus.mixture]

/-- What a read can give: each field whole from one of the versions, and every such choice. -/
theorem PanelStatus.mixture_iff (older : List PanelStatus) (now snap : PanelStatus) :
    (∃ pick, PanelStatus.mixture pick older now = snap) ↔ snap.mixes (now :: older) := by
  have hmem : ∀ {α : Type} (f : PanelStatus → α) pick i, f (now.version pick older i) ∈ (now :: older).map f :=
    fun f pick i => List.mem_map_of_mem (now.version_mem pick older i)
  constructor
  · rintro ⟨pick, rfl⟩
    refine ⟨hmem PanelStatus.obsTime pick 0, hmem PanelStatus.led pick 1, fun g => ?_, fun j => ?_⟩
    · cases g
      · exact hmem (·.zone.g1) pick 2
      · exact hmem (·.zone.g2) pick 3
      · exact hmem (·.zone.g3) pick 4
      · exact hmem (·.zone.g4) pick 5
    · rw [PanelStatus.mixture_zones]
      exact ⟨hmem (·.zones[j].act) pick (6 + 2 * j), hmem (·.zones[j].deact) pick (7 + 2 * j)⟩
  · rintro ⟨h0, h1, hg, hz⟩
    obtain ⟨k0, e0⟩ := PanelStatus.index_of_mem h0
    obtain ⟨k1, e1⟩ := PanelStatus.index_of_mem h1
    choose kg eg using fun g => PanelStatus.index_of_mem (hg g)
    choose ka ea using fun j => PanelStatus.index_of_mem (hz j).1
    choose kd ed using fun j => PanelStatus.index_of_mem (hz j).2
    let f : Nat → Nat
      | 0 => k0 | 1 => k1 | 2 => kg .g1 | 3 => kg .g2 | 4 => kg .g3 | 5 => kg .g4
      | i + 6 => if i % 2 = 0 then ka (Fin.ofNat 32 (i / 2)) else kd (Fin.ofNat 32 (i / 2))
    obtain ⟨pick, hp⟩ := PanelStatus.exists_pick older now 70 f
    have fa : ∀ j : Fin 32, f (6 + 2 * j) = ka j := fun j => by
      rw [show 6 + 2 * j.val = 2 * j.val + 6 by omega]
      show (if 2 * j.val % 2 = 0 then _ else _) = _
      rw [if_pos (by omega), Nat.mul_div_cancel_left _ (by decide), Fin.ofNat_val_eq_self]
    have fd : ∀ j : Fin 32, f (7 + 2 * j) = kd j := fun j => by
      rw [show 7 + 2 * j.val = (2 * j.val + 1) + 6 by omega]
      show (if (2 * j.val + 1) % 2 = 0 then _ else _) = _
      rw [if_neg (by omega), show (2 * j.val + 1) / 2 = j.val by omega, Fin.ofNat_val_eq_self]
    refine ⟨pick, ?_⟩
    have hzones : (PanelStatus.mixture pick older now).zones = snap.zones := by
      apply Vector.ext
      intro j hj
      have e := PanelStatus.mixture_zones pick older now ⟨j, hj⟩
      rw [hp _ (by show 6 + 2 * j < 70; omega), hp _ (by show 7 + 2 * j < 70; omega), fa, fd] at e
      exact e.trans (congrArg₂ ZoneRecord.mk (ea ⟨j, hj⟩) (ed ⟨j, hj⟩))
    have hzone : (PanelStatus.mixture pick older now).zone = snap.zone := by
      have e : ∀ i : Nat, i < 4 → now.version pick older (i + 2) = (now :: older).getD (f (i + 2)) now :=
        fun i hi => hp _ (by omega)
      show PerGroup.mk _ _ _ _ = PerGroup.mk _ _ _ _
      rw [e 0 (by decide), e 1 (by decide), e 2 (by decide), e 3 (by decide)]
      exact congr (congr (congrArg₂ PerGroup.mk (eg .g1) (eg .g2)) (eg .g3)) (eg .g4)
    have hobs : (PanelStatus.mixture pick older now).obsTime = snap.obsTime :=
      (congrArg PanelStatus.obsTime (hp 0 (by decide))).trans e0
    have hled : (PanelStatus.mixture pick older now).led = snap.led :=
      (congrArg PanelStatus.led (hp 1 (by decide))).trans e1
    exact congr (congr (congrArg₂ PanelStatus.mk hobs hled) hzone) hzones

/-- With nothing picked a read gives the status of this moment. -/
@[simp] theorem PanelStatus.mixture_now (older : List PanelStatus) (now : PanelStatus) :
    PanelStatus.mixture [] older now = now := by
  have hz : (PanelStatus.mixture [] older now).zones = now.zones :=
    Vector.ext fun j hj => PanelStatus.mixture_zones [] older now ⟨j, hj⟩
  exact congrArg (PanelStatus.mk now.obsTime now.led now.zone) hz

@[simp] theorem State.readOf_now (who : Reader) (s : State) : s.readOf who [] = s.status := PanelStatus.mixture_now _ _

/-- What a reader can read: each field whole from a version it may meet, and every such choice (R80). -/
theorem State.readOf_iff (who : Reader) (s : State) (snap : PanelStatus) :
    (∃ pick, s.readOf who pick = snap) ↔ snap.mixes (s.status :: s.reads.older who) :=
  PanelStatus.mixture_iff _ _ _

/-- Beginning a read changes what the reader has in progress, and no version it may meet. -/
theorem State.readBegin_older (who who' : Reader) (s : State) : (s.readBegin who).reads.older who' = s.reads.older who' := by
  unfold State.readBegin
  split
  · by_cases h : who' = who
    · subst h; exact Reads.older_busy (Reads.set_progress _ _ _)
    · simp [Reads.older, Reads.set_progress_other _ _ h]
  · rfl

/-! ### The predictor (R263, R264) -/

theorem State.predictorCall_waiting {pick : List Nat} {utc : Text} {s : State} {c : PredCall} (h : s.predWaiting = some c) :
    s.predictorCall pick utc = s := by
  unfold State.predictorCall; rw [h]

theorem State.predictorCall_free {pick : List Nat} {utc : Text} {s : State} (h : s.predWaiting = none) :
    s.predictorCall pick utc
      = { s with
          predLast := (s.readOf .predictor pick).zones
          predWaiting := if (s.readOf .predictor pick).zones = s.predLast then none
            else some (PredCall.on utc (s.readOf .predictor pick))
          reads := s.reads.set .predictor none
          ports := { s.ports with snapshot := s.readOf .predictor pick } } := by
  unfold State.predictorCall; rw [h]

theorem State.predictorReturn_free {answer : Option (List Text)} {s : State} (h : s.predWaiting = none) :
    s.predictorReturn answer = s := by
  unfold State.predictorReturn; rw [h]

theorem State.predictorReturn_failed {s : State} {c : PredCall} (h : s.predWaiting = some c) :
    s.predictorReturn none = { s with predWaiting := none }.report .predictFail := by
  unfold State.predictorReturn; rw [h]

theorem State.predictorReturn_lines {s : State} {c : PredCall} {lines : List Text} (h : s.predWaiting = some c) :
    s.predictorReturn (some lines)
      = { s with predWaiting := none, predCalls := s.predCalls ++ [c]
                 sideEffects := s.sideEffects + (lines.any lineTriggers).toNat } := by
  unfold State.predictorReturn; rw [h]

theorem State.predictorWake_waiting {pick : List Nat} {utc : Text} {answer : Option (List Text)} {s : State} {c : PredCall}
    (h : s.predWaiting = some c) : s.predictorWake pick utc answer = s := by
  unfold State.predictorWake; rw [h]

theorem State.predictorWake_free {pick : List Nat} {utc : Text} {answer : Option (List Text)} {s : State}
    (h : s.predWaiting = none) : s.predictorWake pick utc answer = (s.predictorCall pick utc).predictorReturn answer := by
  unfold State.predictorWake; rw [h]

/-! ### Requests -/

/-- One push of a command: the queue, the log and the strobes after it (R172). -/
theorem State.pushCommand_items (w : Word) (s : State) :
    (s.pushCommand w).a2b.items
      = if s.a2b.items.length = s.params.capA2b then s.a2b.items else s.a2b.items ++ [w] :=
  Queue.pushReject_items _ _ _

theorem State.pushCommand_log (w : Word) (s : State) :
    (s.pushCommand w).evlog
      = s.evlog ++ if s.a2b.items.length = s.params.capA2b then [Event.a2bFull] else [] := by
  show s.evlog ++ Event.onlyIf (!(s.a2b.pushReject s.params.capA2b w).2) .a2bFull = _
  rw [Queue.pushReject_ok]; simp [Event.onlyIf]

theorem State.pushCommand_shown (w : Word) (s : State) :
    (s.pushCommand w).strobes
      = s.strobes ++ if s.a2b.items.length = s.params.capA2b then [Event.a2bFull] else [] := by
  show s.strobes ++ Event.onlyIf (!(s.a2b.pushReject s.params.capA2b w).2) .a2bFull = _
  rw [Queue.pushReject_ok]; simp [Event.onlyIf]

/-- Everything the pushes of a request can do: what fits is appended in order, each push that does not fit is one event, and only
the queue, the reports and the ports are written. -/
theorem State.pushSymbols_cases (xs : List Symbol) (s : State) (h : s.a2b.items.length ≤ s.params.capA2b) :
    ∃ a es p, s.pushSymbols xs = { s with a2b := a, evlog := s.evlog ++ es, strobes := s.strobes ++ es, ports := p } ∧
      a.items = (s.a2b.items ++ xs.map s.params.cmd).take s.params.capA2b ∧
      es = List.replicate (s.a2b.items.length + xs.length - s.params.capA2b) .a2bFull := by
  induction xs generalizing s with
  | nil =>
    have e0 : s.a2b.items.length + ([] : List Symbol).length - s.params.capA2b = 0 := by simp; omega
    refine ⟨s.a2b, [], s.ports, by simp [State.pushSymbols], by simp [List.take_of_length_le h], ?_⟩
    rw [e0]; rfl
  | cons x xs ih =>
    let w := s.params.cmd x
    have hi := s.pushCommand_items w
    have hl : (s.pushCommand w).a2b.items.length ≤ (s.pushCommand w).params.capA2b := by
      rw [hi]
      split
      · exact h
      · simp; omega
    obtain ⟨a, es, p, h1, h2, h3⟩ := ih (s.pushCommand w) hl
    refine ⟨a, (if s.a2b.items.length = s.params.capA2b then [Event.a2bFull] else []) ++ es, p, ?_, ?_, ?_⟩
    · show (s.pushCommand w).pushSymbols xs = _
      rw [h1, State.pushCommand_log, State.pushCommand_shown, List.append_assoc, List.append_assoc]; rfl
    · rw [h2, hi]
      by_cases e : s.a2b.items.length = s.params.capA2b
      · rw [if_pos e]; simp [← e]
      · rw [if_neg e]; simp [w]
    · rw [h3, hi]
      by_cases e : s.a2b.items.length = s.params.capA2b
      · simp only [e, if_true, List.length_cons, State.pushCommand_params]
        rw [show s.params.capA2b + (xs.length + 1) - s.params.capA2b = xs.length + 1 by omega,
          show s.params.capA2b + xs.length - s.params.capA2b = xs.length by omega]; rfl
      · simp only [if_neg e, List.nil_append, List.length_append, List.length_cons, List.length_nil,
          State.pushCommand_params]
        congr 1; omega

/-- The pushes of a request in any state: which parts are written, and that the log grows by what the strobes show. -/
theorem State.pushSymbols_frame (xs : List Symbol) (s : State) :
    ∃ a es p, s.pushSymbols xs = { s with a2b := a, evlog := s.evlog ++ es, strobes := s.strobes ++ es, ports := p } := by
  induction xs generalizing s with
  | nil => exact ⟨s.a2b, [], s.ports, by simp [State.pushSymbols]⟩
  | cons x xs ih =>
    obtain ⟨a, es, p, h⟩ := ih (s.pushCommand (s.params.cmd x))
    refine ⟨a, (if s.a2b.items.length = s.params.capA2b then [Event.a2bFull] else []) ++ es, p, ?_⟩
    show (s.pushCommand (s.params.cmd x)).pushSymbols xs = _
    rw [h, State.pushCommand_log, State.pushCommand_shown, List.append_assoc, List.append_assoc]; rfl

/-- The pushes of a request keep the queue canonical. -/
theorem State.pushSymbols_wf (xs : List Symbol) (s : State) (h : s.a2b.wf s.params.capA2b = true) :
    (s.pushSymbols xs).a2b.wf s.params.capA2b = true := by
  induction xs generalizing s with
  | nil => exact h
  | cons x xs ih => exact ih (s.pushCommand (s.params.cmd x)) (Queue.pushReject_wf _ h)

/-- What the pushes of a request leave in the queue depends on the queue and the parameters alone. -/
theorem State.pushSymbols_a2b_congr (xs : List Symbol) (s t : State) (hq : s.a2b = t.a2b) (hp : s.params = t.params) :
    (s.pushSymbols xs).a2b = (t.pushSymbols xs).a2b := by
  induction xs generalizing s t with
  | nil => exact hq
  | cons x xs ih =>
    show ((s.pushCommand (s.params.cmd x)).pushSymbols xs).a2b = ((t.pushCommand (t.params.cmd x)).pushSymbols xs).a2b
    apply ih
    · show (s.a2b.pushReject _ _).1 = (t.a2b.pushReject _ _).1
      rw [hq, hp]
    · exact hp

/-- The pushes of a request do not read the strobes. -/
theorem State.pushSymbols_quiet (xs : List Symbol) (s : State) :
    { s.pushSymbols xs with strobes := [] } = { ({ s with strobes := [] } : State).pushSymbols xs with strobes := [] } := by
  induction xs generalizing s with
  | nil => rfl
  | cons x xs ih =>
    exact (ih (s.pushCommand (s.params.cmd x))).trans
      (ih (({ s with strobes := [] } : State).pushCommand (s.params.cmd x))).symm

/-- The response writes the ports and ends the responder's read. -/
theorem State.respond_ports (json : Bool) (snap : PanelStatus) (s : State) :
    ∃ p, s.respond json snap = { s with ports := p, reads := s.reads.set .responder none } ∧ p.snapshot = snap :=
  ⟨_, rfl, rfl⟩

/-- A whole request in any state: which parts are written. -/
theorem State.serve_frame (xs : List Symbol) (json : Bool) (s : State) :
    ∃ es p, s.serve xs json
      = { s with a2b := (s.pushSymbols xs).a2b, evlog := s.evlog ++ es, strobes := s.strobes ++ es, ports := p,
                 reads := s.reads.set .responder none } ∧
      p.snapshot = s.status := by
  obtain ⟨a, es, p, h⟩ := s.pushSymbols_frame xs
  exact ⟨es, _, by simp only [State.serve, h]; rfl, rfl⟩

/-- A request row: it runs whole when the responder is free, and waits otherwise. -/
theorem State.handle_free {xs : List Symbol} {json : Bool} {s : State} (h : s.requests = []) :
    s.handle xs json = s.serve xs json := if_pos h

theorem State.handle_busy {xs : List Symbol} {json : Bool} {s : State} (h : s.requests ≠ []) :
    s.handle xs json = s.accept { symbols := xs, json := json } := if_neg h

/-- A request row in any state: which parts are written, with the pushes that are made. -/
theorem State.handle_frame (xs : List Symbol) (json : Bool) (s : State) :
    ∃ ys es p rs rd, s.handle xs json
      = { s with a2b := (s.pushSymbols ys).a2b, evlog := s.evlog ++ es, strobes := s.strobes ++ es, ports := p,
                 requests := rs, reads := rd } := by
  by_cases h : s.requests = []
  · obtain ⟨es, p, e, -⟩ := s.serve_frame xs json
    exact ⟨xs, es, p, s.requests, _, by rw [State.handle_free h, e]⟩
  · exact ⟨[], [], s.ports, s.requests ++ [{ symbols := xs, json := json }], s.reads,
      by rw [State.handle_busy h]; simp [State.accept, State.pushSymbols]⟩

/-- What one step of the responder is: nothing, the response, or one push. -/
theorem State.producerStep_idle {pick : List Nat} {s : State} (h : s.requests = []) : s.producerStep pick = s := by
  unfold State.producerStep; rw [h]

theorem State.producerStep_respond {pick : List Nat} {s : State} {j : Bool} {rs : List Request}
    (h : s.requests = { symbols := [], json := j } :: rs) :
    s.producerStep pick = { s with requests := rs }.respond j (s.readOf .responder pick) := by
  unfold State.producerStep; rw [h]

theorem State.producerStep_push {pick : List Nat} {s : State} {x : Symbol} {xs : List Symbol} {j : Bool}
    {rs : List Request} (h : s.requests = { symbols := x :: xs, json := j } :: rs) :
    s.producerStep pick
      = { s with requests := { symbols := xs, json := j } :: rs }.pushCommand (s.params.cmd x) := by
  unfold State.producerStep; rw [h]; rfl

/-- One step of the responder in any state: which parts are written, with the push that is made, if one is. -/
theorem State.producerStep_frame (pick : List Nat) (s : State) :
    ∃ ys es p rs rd, s.producerStep pick
      = { s with a2b := (s.pushSymbols ys).a2b, evlog := s.evlog ++ es, strobes := s.strobes ++ es, ports := p,
                 requests := rs, reads := rd } := by
  rcases h : s.requests with _ | ⟨⟨_ | ⟨x, xs⟩, j⟩, rs⟩
  · exact ⟨[], [], s.ports, [], s.reads, by rw [State.producerStep_idle h, ← h]; simp [State.pushSymbols]⟩
  · exact ⟨[], [], _, rs, _, by rw [State.producerStep_respond h]; simp only [List.append_nil]; rfl⟩
  · exact ⟨[x], _, _, _, s.reads, by rw [State.producerStep_push h]; rfl⟩

/-- A request's steps one after the other, with no other agent's between, end as the whole request does (R259, R337). -/
theorem stepAll_request (xs : List Symbol) (j : Bool) (rest : List Action) (s : State)
    (hr : s.requests = [{ symbols := xs, json := j }])
    (ha : s.agenda = List.replicate (xs.length + 1) (.producerStep []) ++ rest) :
    stepAll (xs.length + 1) s
      = .next { ({ s with strobes := [], requests := [], agenda := rest } : State).serve xs j with strobes := [] } := by
  induction xs generalizing s with
  | nil =>
    rw [List.length_nil, stepAll_next (step_producerStep (rest := rest) ha),
      State.producerStep_respond (s := s.begin rest) hr, State.readOf_now]
    rfl
  | cons x xs ih =>
    rw [List.length_cons, List.replicate_succ, List.cons_append] at ha
    rw [List.length_cons, stepAll_next (step_producerStep ha), State.producerStep_push (s := s.begin _) hr, ih _ rfl rfl]
    let u : State := { s with strobes := [], requests := [], agenda := rest }
    exact congrArg (fun v : State => Host.Outcome.next (v.respond j s.status))
      (State.pushSymbols_quiet xs (u.pushCommand (s.params.cmd x))).symm

/-! ### Texts of a response -/

theorem joinWith_eq_intercalate (sep : Text) (l : List Text) : joinWith sep l = List.intercalate sep l := by
  induction l with
  | nil => rfl
  | cons a l ih =>
    cases l with
    | nil => simp [joinWith, List.intercalate]
    | cons b l => simp only [joinWith, ih]; simp [List.intercalate, List.intersperse]

/-! ### The tracker (R252) -/

theorem inGroup_eq (g : Group) (j : Nat) : inGroup g j = decide (8 * (g.num - 1) ≤ j ∧ j < 8 * g.num) := by
  unfold inGroup
  congr 1
  apply propext
  unfold Group.base
  cases g <;> simp [Group.num] <;> omega

/-- One zone after a report: its own record's rule inside the group, untouched outside. -/
theorem zoneTrack_getElem (g : Group) (m : BitVec 32) (t : Nat) (zs : Vector ZoneRecord 32) (j : Fin 32) :
    (zoneTrack g m t zs)[j]
      = if 8 * (g.num - 1) ≤ j.val ∧ j.val < 8 * g.num then zs[j].see (m.getLsbD j) t else zs[j] := by
  simp [zoneTrack, inGroup_eq]

theorem ZoneRecord.see_true (t : Nat) (r : ZoneRecord) :
    r.see true t = if r.act > r.deact then r else { r with act := t } := rfl

theorem ZoneRecord.see_false (t : Nat) (r : ZoneRecord) :
    r.see false t = if r.deact < r.act then { r with deact := t } else r := rfl

/-! ### The status after a consumed word (R251) -/

@[simp] theorem PanelStatus.observe_obsTime (out : DecodeOut) (t : Nat) (st : PanelStatus) : (st.observe out t).obsTime = t := by
  unfold PanelStatus.observe; split <;> rfl

theorem PanelStatus.observe_led (out : DecodeOut) (t : Nat) (st : PanelStatus) :
    (st.observe out t).led = if out.kind = .led then out.message else st.led := by
  unfold PanelStatus.observe; split <;> simp [*]

theorem PanelStatus.observe_zone (out : DecodeOut) (t : Nat) (st : PanelStatus) (g : Group) :
    (st.observe out t).zone.get g = if out.kind = .zone g then out.message else st.zone.get g := by
  unfold PanelStatus.observe
  split <;> simp only [*] <;> try rfl
  next h => cases g <;> (rename_i g'; cases g' <;> rfl)

theorem PanelStatus.observe_zones (out : DecodeOut) (t : Nat) (st : PanelStatus) :
    (st.observe out t).zones
      = match out.kind with
        | .zone g => zoneTrack g out.zoneBitmap t st.zones
        | .led | .datetime | .fixed _ | .keypad | .other => st.zones := by
  unfold PanelStatus.observe; split <;> simp [*]

/-! ### The predictor's patterns (R264) -/

theorem textIsIn_iff (pat l : Text) : textIsIn pat l = true ↔ pat <:+: l := by
  induction l with
  | nil => simp [textIsIn, List.isEmpty_iff]
  | cons c cs ih => simp [textIsIn, ih, List.infix_cons_iff]

theorem lineTriggers_iff (line : Text) :
    lineTriggers line = true ↔
      ∃ k, 1 ≤ k ∧ k ≤ 8 ∧ ("prediction ".toList ++ Nat.toDigits 10 k ++ ": 2".toList) <:+: line := by
  unfold lineTriggers
  simp only [List.any_eq_true, List.mem_range, textIsIn_iff]
  constructor
  · rintro ⟨x, hx, h⟩; exact ⟨x + 1, by omega, by omega, h⟩
  · rintro ⟨k, h1, h2, h⟩; exact ⟨k - 1, by omega, by rw [show k - 1 + 1 = k by omega]; exact h⟩

end Sys2Proof.Machine
end

