-- ==== Sys2Proof/Laws/Word.lean ====
section
/-! SUPPORT. Laws of the bits and fields of a word: what a written position reads as, and a field as a quotient. -/

namespace Sys2Proof

theorem Word.bit_eq (w : Word) {p : Nat} (h : p < 64) : w.bit p = w.getLsbD (63 - p) := by
  simp [Word.bit, BitVec.getMsbD, h]

theorem Word.oneAt_bit {p q : Nat} (hp : p < 64) (hq : q < 64) :
    Word.bit (Word.oneAt p) q = decide (q = p) := by
  rw [Word.bit_eq _ hq]
  simp only [Word.oneAt, BitVec.getLsbD_shiftLeft, BitVec.getLsbD_one]
  by_cases h : q = p
  · subst h; simp; omega
  · have : ¬ (63 - q - (63 - p) = 0 ∧ 63 - p ≤ 63 - q) := by omega
    simp [h]; omega

/-- Reading a position after writing one: the written position gives the written bit, every other is as before. -/
theorem Word.setBit_bit (w : Word) (b : Bool) {p q : Nat} (hp : p < 64) (hq : q < 64) :
    (w.setBit p b).bit q = if q = p then b else w.bit q := by
  have h1 := Word.oneAt_bit hp hq
  have h2 : 63 - q < 64 := by omega
  rw [Word.bit_eq _ hq] at h1 ⊢
  rw [Word.bit_eq _ hq]
  cases b
  · simp only [Word.setBit, Bool.false_eq_true, if_false, BitVec.getLsbD_and, BitVec.getLsbD_not, h1, h2]
    by_cases h : q = p <;> simp [h]
  · simp only [Word.setBit, if_true, BitVec.getLsbD_or, h1]
    by_cases h : q = p <;> simp [h]

theorem fillWord_bit (b : Bool) {p : Nat} (hp : p < 64) : (fillWord b).bit p = b := by
  rw [Word.bit_eq _ hp]
  have h : 63 - p < 64 := by omega
  cases b
  · simp [fillWord]
  · simp only [fillWord, if_pos, BitVec.getLsbD_allOnes, h, decide_true]

/-- Two words with the same bits at all 64 positions are equal. -/
theorem Word.ext_bit {v w : Word} (h : ∀ p, p < 64 → v.bit p = w.bit p) : v = w := by
  apply BitVec.eq_of_getLsbD_eq
  intro i hi
  have := h (63 - i) (by omega)
  rw [Word.bit_eq _ (by omega), Word.bit_eq _ (by omega)] at this
  simpa [show 63 - (63 - i) = i by omega] using this

theorem Word.bit_toNat (w : Word) {p : Nat} (h : p < 64) :
    (w.bit p).toNat = w.toNat / 2 ^ (63 - p) % 2 := by
  rw [Word.bit_eq _ h, BitVec.getLsbD, Nat.testBit_eq_decide_div_mod_eq]
  rcases Nat.mod_two_eq_zero_or_one (w.toNat / 2 ^ (63 - p)) with h | h <;> simp [h]

/-- `field` as a quotient of the word's number. -/
theorem field_eq (w : Word) (off n : Nat) (h : off + n ≤ 64) :
    field w off n = w.toNat / 2 ^ (64 - off - n) % 2 ^ n := by
  induction n with
  | zero => simp [field, Nat.mod_one]
  | succ n ih =>
    rw [field, ih (by omega), Word.bit_toNat w (by omega)]
    have e : 64 - off - n = (63 - (off + n)) + 1 := by omega
    have e2 : 64 - off - (n + 1) = 63 - (off + n) := by omega
    rw [e, e2, Nat.pow_succ, ← Nat.div_div_eq_div_mul]
    generalize w.toNat / 2 ^ (63 - (off + n)) = m
    rw [Nat.pow_succ, Nat.mul_comm (2 ^ n) 2, Nat.mod_mul]
    omega

theorem field_lt (w : Word) (off n : Nat) : field w off n < 2 ^ n := by
  induction n with
  | zero => simp [field]
  | succ n ih =>
    have : (w.bit (off + n)).toNat ≤ 1 := by cases w.bit (off + n) <;> simp
    simp only [field, Nat.pow_succ]; omega

/-- A field of ones is a run of one bits. -/
theorem field_ones (w : Word) (off n : Nat) :
    field w off n = 2 ^ n - 1 ↔ ∀ k, k < n → w.bit (off + k) = true := by
  induction n with
  | zero => simp [field]
  | succ n ih =>
    have hlt := field_lt w off n
    have hp : 0 < 2 ^ n := Nat.two_pow_pos n
    constructor
    · intro h k hk
      rw [field, Nat.pow_succ] at h
      rcases Nat.lt_succ_iff_lt_or_eq.mp hk with h' | h'
      · refine ih.mp ?_ k h'
        have : (w.bit (off + n)).toNat ≤ 1 := Bool.toNat_le _
        omega
      · subst h'; cases hb : w.bit (off + k) with
        | true => rfl
        | false => simp [hb] at h; omega
    · intro h
      rw [field, ih.mpr (fun k hk => h k (by omega)), h n (by omega), Nat.pow_succ]
      simp; omega

/-- The bits of a field, the last position being the least significant. -/
theorem field_testBit (w : Word) (off n i : Nat) (hi : i < n) :
    (field w off n).testBit i = w.bit (off + (n - 1 - i)) := by
  induction n generalizing i with
  | zero => omega
  | succ n ih =>
    have e : field w off (n + 1) = 2 * field w off n + (w.bit (off + n)).toNat := rfl
    rw [e]
    cases i with
    | zero =>
      have : off + (n + 1 - 1 - 0) = off + n := by omega
      rw [Nat.testBit_zero, this]
      cases w.bit (off + n) <;> simp [Nat.add_mod]
    | succ i =>
      rw [Nat.testBit_succ]
      have : (2 * field w off n + (w.bit (off + n)).toNat) / 2 = field w off n := by
        have : (w.bit (off + n)).toNat ≤ 1 := Bool.toNat_le _
        omega
      rw [this, ih i (by omega)]
      congr 1; omega

end Sys2Proof
end

