-- ==== Sys2Proof/Laws/Codec.lean ====
section
/-! SUPPORT. What the codec's shared parts do, once each: the matcher, the idle test, the zone bitmap, the profile's look-ups, the
texts of a record. -/

namespace Sys2Proof.Machine

/-! ### The matcher -/

theorem Button.mem_all (b : Button) : b ∈ Button.all := by cases b <;> decide

/-- R106 (d): no two buttons share a row. -/
theorem Params.btn_inj {p : Params} (h : p.tablesWf = true) {b c : Button} (e : p.btn b = p.btn c) : b = c := by
  simp only [Params.tablesWf, Bool.and_eq_true, decide_eq_true_eq] at h
  exact List.inj_on_of_nodup_map h.1.1.1 (Button.mem_all b) (Button.mem_all c) e

/-- The matcher answers b exactly on b's row. -/
theorem matchButton_eq_some {p : Params} (h : p.tablesWf = true) (v : Nat) (b : Button) :
    matchButton p v = some b ↔ v = p.btn b := by
  unfold matchButton
  constructor
  · intro hf; simpa using List.find?_some hf
  · intro e
    cases hf : List.find? (fun b => v == p.btn b) Button.all with
    | none => exact absurd (by simpa using e) (List.find?_eq_none.mp hf b (Button.mem_all b))
    | some c =>
      have e' : v = p.btn c := by simpa using List.find?_some hf
      rw [Params.btn_inj h (e'.symm.trans e)]

/-- The matcher answers unknown exactly on a value in no row. -/
theorem matchButton_eq_none (p : Params) (v : Nat) : matchButton p v = none ↔ ∀ b, v ≠ p.btn b := by
  unfold matchButton
  rw [List.find?_eq_none]
  exact ⟨fun h b => by simpa using h b (Button.mem_all b), fun h b _ => by simpa using h b⟩

theorem buttonOut_eq_symbol (o : Option Button) (b : Button) : buttonOut o = .symbol (.button b) ↔ o = some b := by
  cases o <;> simp [buttonOut]

theorem buttonOut_eq_unknown (o : Option Button) : buttonOut o = .unknown ↔ o = none := by
  cases o <;> simp [buttonOut]

/-- The idle test as a number and position by position. -/
theorem idleBits_iff (p : Params) (w : Word) :
    field w p.profile.idleOff Config.idleWidth = 0xffffffff ↔ idleBits p w :=
  field_ones w p.profile.idleOff 32

/-! ### The zone bitmap -/

/-- Inside the group, a bit of the bitmap is the bit of the field. -/
theorem zoneBits_inside (n k i : Nat) (hi : i < 8) (hk : k + 8 ≤ 32) :
    (BitVec.ofNat 32 n <<< k).getLsbD (k + i) = n.testBit i := by
  have h1 : k + i < 32 := by omega
  have h2 : i < 32 := by omega
  simp only [BitVec.getLsbD_shiftLeft, BitVec.getLsbD_ofNat, h1, Nat.add_sub_cancel_left, h2, decide_true, Bool.true_and]
  simp

/-- Outside the group it is 0. -/
theorem zoneBits_outside {n k j : Nat} (hn : n < 2 ^ 8) (h : ¬ (k ≤ j ∧ j < k + 8)) :
    (BitVec.ofNat 32 n <<< k).getLsbD j = false := by
  rw [BitVec.getLsbD_shiftLeft]
  by_cases h1 : j < k
  · simp [h1]
  · have : n.testBit (j - k) = false :=
      Nat.testBit_lt_two_pow (lt_of_lt_of_le hn (Nat.pow_le_pow_right (by omega) (by omega)))
    simp [BitVec.getLsbD_ofNat, this]

/-! ### The profile's look-ups -/

/-- A group's own code names that group. -/
theorem zoneGroupOf_get (p : Profile) (g : Group)
    (h : [p.codeZone.g1, p.codeZone.g2, p.codeZone.g3, p.codeZone.g4].Nodup) : zoneGroupOf p (p.codeZone.get g) = some g := by
  simp only [List.nodup_cons, List.mem_cons, List.not_mem_nil, or_false, not_or] at h
  obtain ⟨⟨h1, h2, h3⟩, ⟨h4, h5⟩, h6, -⟩ := h
  have h1 := beq_eq_false_iff_ne.mpr h1
  have h2 := beq_eq_false_iff_ne.mpr h2
  have h3 := beq_eq_false_iff_ne.mpr h3
  have h4 := beq_eq_false_iff_ne.mpr h4
  have h5 := beq_eq_false_iff_ne.mpr h5
  have h6 := beq_eq_false_iff_ne.mpr h6
  cases g <;> simp only [zoneGroupOf, PerGroup.get, List.find?, *, beq_self_eq_true]

theorem zoneGroupOf_eq_none (p : Profile) (c : Nat) : zoneGroupOf p c = none ↔ ∀ g, c ≠ p.codeZone.get g := by
  unfold zoneGroupOf
  rw [List.find?_eq_none]
  constructor
  · intro h g
    have := h g (by cases g <;> simp)
    exact fun e => this (by simp [e])
  · intro h g _ e
    exact h g (beq_iff_eq.mp e).symm

theorem lookup_of_mem {l : List (Nat × FixedKind)} (h : (l.map Prod.fst).Nodup) {c : Nat} {k : FixedKind} (hm : (c, k) ∈ l) :
    l.lookup c = some k := by
  induction l with
  | nil => simp at hm
  | cons x l ih =>
    obtain ⟨a, b⟩ := x
    simp only [List.map_cons, List.nodup_cons] at h
    rw [List.lookup_cons]
    rcases List.mem_cons.mp hm with e | hm
    · cases e; simp
    · have hne : (c == a) = false := by
        simpa using fun e : c = a => h.1 (e ▸ List.mem_map.mpr ⟨_, hm, rfl⟩)
      rw [hne]; exact ih h.2 hm

theorem lookup_of_not_mem {l : List (Nat × FixedKind)} {c : Nat} (h : ∀ k, (c, k) ∉ l) : l.lookup c = none := by
  rw [List.lookup_eq_none_iff]
  rintro ⟨a, b⟩ hm
  simp only [bne_iff_ne, ne_eq]
  exact fun e => h b (e ▸ hm)

/-! ### Texts -/

/-- The LED text as one list of parts; `r` is the part for Ready. -/
theorem ledText_parts (start r e b m a p : Text) (ce cb cm ca cp : Bool) :
    start ++ r ++ textIf ce e ++ textIf cb b ++ textIf cm m ++ textIf ca a ++ textIf cp p
      = [start, r, if ce then e else [], if cb then b else [], if cm then m else [], if ca then a else [],
          if cp then p else []].flatten := by
  simp [textIf]

/-- The date text as one list of parts. -/
theorem dateText_parts (a b c d e f g h i j k : Text) :
    a ++ b ++ c ++ d ++ e ++ f ++ g ++ h ++ i ++ j ++ k = [a, b, c, d, e, f, g, h, i, j, k].flatten := by simp

/-- Texts of the members of a list that pass a test, as a filter and as a choice for each member. -/
theorem flatten_filter (p : Nat → Bool) (f : Nat → Text) (l : List Nat) :
    (l.map fun i => if p i then f i else []).flatten = ((l.filter p).map f).flatten := by
  induction l with
  | nil => rfl
  | cons a l ih => by_cases h : p a <;> simp [h, ih]

/-- Showing a record and rendering it again changes nothing: the rendering does not read the message (R208). -/
theorem render_withMessage (o : DecodeOut) : render (withMessage o) = render o := rfl

end Sys2Proof.Machine
end

