-- ==== Sys2Proof/Laws/Encoding.lean ====
section
/-! SUPPORT. Laws of the operand encodings: what is taken from the bytes of an operand is the operand, and the bytes after it
are left. -/

namespace Sys2Proof

theorem bytesOfNum_length (k n : Nat) : (bytesOfNum k n).length = k := by
  induction k generalizing n with
  | zero => rfl
  | succ k ih => simp [bytesOfNum, ih]

theorem numOfBytes_foldl (bs : List Byte) (a : Nat) :
    bs.foldl (fun acc b => 256 * acc + b.toNat) a = 256 ^ bs.length * a + numOfBytes bs := by
  induction bs generalizing a with
  | nil => simp [numOfBytes]
  | cons b bs ih =>
    simp only [numOfBytes, List.foldl_cons, List.length_cons]
    rw [ih, ih (256 * 0 + b.toNat)]
    ring

theorem numOfBytes_cons (b : Byte) (bs : List Byte) :
    numOfBytes (b :: bs) = 256 ^ bs.length * b.toNat + numOfBytes bs := by
  rw [numOfBytes, List.foldl_cons, numOfBytes_foldl]
  simp

theorem numOfBytes_bytesOfNum (k n : Nat) : numOfBytes (bytesOfNum k n) = n % 256 ^ k := by
  induction k generalizing n with
  | zero => simp [bytesOfNum, numOfBytes, Nat.mod_one]
  | succ k ih =>
    rw [bytesOfNum, numOfBytes_cons, ih, bytesOfNum_length, Nat.pow_succ, Nat.mod_mul]
    simp [BitVec.toNat_ofNat]
    ring

/-- A number of `k` bytes is read back, and what follows is left. -/
theorem takeNum_bytesOfNum (k n : Nat) (h : n < 256 ^ k) (r : List Byte) :
    takeNum k (bytesOfNum k n ++ r) = .ok (n, r) := by
  have hl := bytesOfNum_length k n
  have h1 : ¬ (bytesOfNum k n ++ r).length < k := by simp [hl]
  rw [takeNum, if_neg h1, List.take_left' hl, List.drop_left' hl, numOfBytes_bytesOfNum,
    Nat.mod_eq_of_lt h]

/-- A word is read back, and what follows is left. -/
theorem takeWord_bytesOfWord (w : Word) (r : List Byte) :
    takeWord (bytesOfWord w ++ r) = .ok (w, r) := by
  have h : w.toNat < 256 ^ 8 := w.isLt
  simp [takeWord, bytesOfWord, takeNum_bytesOfNum 8 _ h]

/-- A word with nothing after it. -/
theorem takeWord_bytesOfWord_nil (w : Word) : takeWord (bytesOfWord w) = .ok (w, []) := by
  simpa using takeWord_bytesOfWord w []

theorem takeNum_bytesOfNum_nil (k n : Nat) (h : n < 256 ^ k) :
    takeNum k (bytesOfNum k n) = .ok (n, []) := by
  simpa using takeNum_bytesOfNum k n h []

/-- A body without a line end is read back from its line. -/
theorem takeLine_append (body : List Byte) (h : lineEnd ∉ body) :
    takeLine (body ++ [lineEnd]) = .ok (body, []) := by
  induction body with
  | nil => simp [takeLine]
  | cons b bs ih =>
    have hb : b ≠ lineEnd := fun e => h (e ▸ List.mem_cons_self)
    have hbs : lineEnd ∉ bs := fun m => h (List.mem_cons_of_mem _ m)
    simp [takeLine, hb, ih hbs]

theorem digitByte_toNat (d : Fin 10) : (digitByte d).toNat = 48 + d.val := by
  simp only [digitByte, BitVec.toNat_ofNat]; omega

theorem byteDigit_digitByte (d : Fin 10) : byteDigit (digitByte d) = some d := by
  simp [byteDigit, digitByte_toNat]

/-- Digits are read back from their characters. -/
theorem bodyDigits_map (ds : List (Fin 10)) : bodyDigits (ds.map digitByte) = some ds := by
  induction ds with
  | nil => rfl
  | cons d ds ih => simp [bodyDigits, byteDigit_digitByte, ih]

/-- No digit is a letter of a name or a line end. -/
theorem digitByte_range (d : Fin 10) : 48 ≤ (digitByte d).toNat ∧ (digitByte d).toNat < 58 := by
  rw [digitByte_toNat]; omega

end Sys2Proof
end

