-- ==== Sys2Proof/Laws/Exec.lean ====
section
/-! SUPPORT. Everything an operation, and a step, can do: one case for each way the next state is made from the state. A proof about
every operation splits on these instead of on the 81 rows. -/

namespace Sys2Proof.Machine

/-- The request rows are the digit row and the rows of `nameRows`. -/
theorem Instr.isRequest_iff (i : Instr) :
    Instr.isRequest i = true ↔ (∃ ds, i = .reqDigits ds) ∨ ∃ body, i ∈ (nameRows body).map Prod.fst := by
  cases i <;> simp [Instr.isRequest, nameRows]

/-- How an operation makes its next state. -/
inductive ExecCase (s : State) : Instr → State → Prop where
  | ports (i : Instr) (p : Ports) : Instr.isInner i = false → ExecCase s i { s with ports := p }
  | none (i : Instr) : i = .pollNoneLow ∨ i = .pollNoneHigh → ExecCase s i s
  | tick (c d : Level) : ExecCase s (.tick c d) (s.tick c d)
  | poll (c : Level) : ExecCase s (.poll c) (s.poll (clkLevel s.params c))
  | rise : ExecCase s .rise s.takeRise
  | fall : ExecCase s .fall s.takeFall
  | boundaryMark : ExecCase s .boundaryMark { s with ports := { s.ports with boundary := s.boundary } }.mark
  | shortFrame : ExecCase s .shortFrame s.shortFrame
  | validFrame : ExecCase s .validFrame s.validFrame
  | resetFrame : ExecCase s .resetFrame s.resetFrame
  | drive : ExecCase s .drive s.drive
  | ksample (d : Level) : ExecCase s (.ksample d) (s.ksample d)
  | release : ExecCase s .release s.release
  | psample (d : Level) : ExecCase s (.psample d) (s.psample d)
  | pushOverwrite (w : Word) : ExecCase s (.qpushOverwrite .sampler w) (s.portPushOverwrite w)
  | pushReject (w : Word) : ExecCase s (.qpushReject .producer w) (s.pushCommand w)
  | pop (q : QueueId) : ExecCase s (.qpop (popperOf q) q) (s.portPop q)
  | pinconfig (p : Pin) (d : Dir) : ExecCase s (.pinconfig p d) (s.configurePin p d)
  | request (i : Instr) (xs : List Symbol) (j : Bool) : Instr.isRequest i = true → ExecCase s i (s.handle xs j)
  | consume (w : Word) (t : Nat) : ExecCase s (.consume w t) (s.consume w t)
  | zonetrack (g : Group) (m : BitVec 32) (t : Nat) : ExecCase s (.zonetrack g m t) (s.zonetrack g m t)

/-- An operation that answers a next state makes it in one of these ways. -/
theorem exec_cases {i : Instr} {s t : State} (h : exec i s = .next t) : ExecCase s i t := by
  cases i
  case tick c d => cases h; exact .tick c d
  case poll c => cases h; exact .poll c
  case rise => cases h; exact .rise
  case fall => cases h; exact .fall
  case boundaryMark => cases h; exact .boundaryMark
  case shortFrame => cases h; exact .shortFrame
  case validFrame => cases h; exact .validFrame
  case resetFrame => cases h; exact .resetFrame
  case drive => cases h; exact .drive
  case ksample d => cases h; exact .ksample d
  case release => cases h; exact .release
  case psample d => cases h; exact .psample d
  case pinconfig p d => cases h; exact .pinconfig p d
  case consume w t => cases h; exact .consume w t
  case zonetrack g m t => cases h; exact .zonetrack g m t
  case pollNoneLow => cases h; exact .none _ (.inl rfl)
  case pollNoneHigh => cases h; exact .none _ (.inr rfl)
  case qcount q => cases h; cases q <;> exact .ports _ _ rfl
  case qpushOverwrite a w =>
    simp only [exec, execQpushOverwrite] at h
    split at h
    · next e => cases h; cases e; exact .pushOverwrite w
    · cases h
  case qpushReject a w =>
    simp only [exec, execQpushReject] at h
    split at h
    · next e => cases h; cases e; exact .pushReject w
    · cases h
  case qpop a q =>
    simp only [exec, execQpop] at h
    split at h
    · next e => cases h; cases e; exact .pop q
    · cases h
  case reqDigits ds => cases h; exact .request _ _ _ rfl
  case reqStar => cases h; exact .request _ _ _ rfl
  case reqPound => cases h; exact .request _ _ _ rfl
  case reqStay => cases h; exact .request _ _ _ rfl
  case reqAway => cases h; exact .request _ _ _ rfl
  case reqIdle => cases h; exact .request _ _ _ rfl
  case reqTag => cases h; exact .request _ _ _ rfl
  case reqOther body => cases h; exact .request _ _ _ rfl
  all_goals cases h; exact .ports _ _ rfl

/-- How a step makes its next state. -/
inductive StepCase (s : State) : State → Prop where
  | free : s.agenda = [] → StepCase s (s.begin []).freeTick
  | op (bytes : List Byte) (rest : List Action) (i : Instr) (t : State) : s.agenda = .op bytes :: rest →
      decode bytes = .ok i → ExecCase (s.begin rest) i t → StepCase s t
  | request (body : List Byte) (rest : List Action) : s.agenda = .request body :: rest →
      StepCase s ((s.begin rest).accept (Request.ofRow (classifyRequest body)))
  | producerStep (pick : List Nat) (rest : List Action) : s.agenda = .producerStep pick :: rest →
      StepCase s ((s.begin rest).producerStep pick)
  | readBegin (who : Reader) (rest : List Action) : s.agenda = .readBegin who :: rest →
      StepCase s ((s.begin rest).readBegin who)
  | decoderStep (t : Nat) (rest : List Action) : s.agenda = .decoderStep t :: rest →
      StepCase s ((s.begin rest).decoderStep t)
  | predictorWake (pick : List Nat) (utc : Text) (answer : Option (List Text)) (rest : List Action) :
      s.agenda = .predictorWake pick utc answer :: rest → StepCase s ((s.begin rest).predictorWake pick utc answer)
  | predictorCall (pick : List Nat) (utc : Text) (rest : List Action) : s.agenda = .predictorCall pick utc :: rest →
      StepCase s ((s.begin rest).predictorCall pick utc)
  | predictorReturn (answer : Option (List Text)) (rest : List Action) : s.agenda = .predictorReturn answer :: rest →
      StepCase s ((s.begin rest).predictorReturn answer)
  | rst (rest : List Action) : s.agenda = .rst :: rest → StepCase s (s.begin rest).applyReset

/-- A step that answers a next state makes it in one of these ways. -/
theorem step_cases {s t : State} (h : step s = .next t) : StepCase s t := by
  rcases ha : s.agenda with _ | ⟨a, rest⟩
  · rw [step_nil ha] at h; cases h; exact .free ha
  · cases a with
    | op bytes =>
      rcases hd : decode bytes with e | i
      · rw [step_op_error ha hd] at h; cases h
      · rw [step_op ha hd] at h; exact .op bytes rest i t ha hd (exec_cases h)
    | request body => rw [step_request ha] at h; cases h; exact .request body rest ha
    | producerStep pick => rw [step_producerStep ha] at h; cases h; exact .producerStep pick rest ha
    | readBegin who => rw [step_readBegin ha] at h; cases h; exact .readBegin who rest ha
    | decoderStep t => rw [step_decoderStep ha] at h; cases h; exact .decoderStep t rest ha
    | predictorWake pick utc answer =>
      rw [step_predictorWake ha] at h; cases h; exact .predictorWake pick utc answer rest ha
    | predictorCall pick utc => rw [step_predictorCall ha] at h; cases h; exact .predictorCall pick utc rest ha
    | predictorReturn answer => rw [step_predictorReturn ha] at h; cases h; exact .predictorReturn answer rest ha
    | rst => rw [step_rst ha] at h; cases h; exact .rst rest ha
    | fatal f => rw [step_fatal ha] at h; cases h

/-! ### What the agents' own steps write -/

/-- The decoder agent's step writes its queue, a port, the trace, the status and what its readers may meet, and nothing else. -/
theorem State.decoderStep_frame (t : Nat) (s : State) :
    ∃ st rd n tr p, s.decoderStep t
      = { s with b2a := (s.b2a.pop s.params.capB2a).1, status := st, reads := rd, traceIdx := n, traceOut := tr,
                 ports := p } := by
  unfold State.decoderStep
  dsimp only
  split
  · exact ⟨s.status, _, s.traceIdx, s.traceOut, _, rfl⟩
  · exact ⟨_, _, _, _, _, rfl⟩

/-- Beginning a read writes what the readers may meet. -/
theorem State.readBegin_frame (who : Reader) (s : State) : ∃ rd, s.readBegin who = { s with reads := rd } := by
  unfold State.readBegin
  split
  · exact ⟨_, rfl⟩
  · exact ⟨s.reads, rfl⟩

/-- A wake up to its call writes the predictor's own copy, its call, its read and a port. -/
theorem State.predictorCall_frame (pick : List Nat) (utc : Text) (s : State) :
    ∃ zs w rd p, s.predictorCall pick utc = { s with predLast := zs, predWaiting := w, reads := rd, ports := p } := by
  rcases h : s.predWaiting with _ | c
  · exact ⟨_, _, _, _, State.predictorCall_free h⟩
  · exact ⟨s.predLast, s.predWaiting, s.reads, s.ports, State.predictorCall_waiting h⟩

/-- A return of the collaborator writes the calls and perhaps one report. -/
theorem State.predictorReturn_frame (answer : Option (List Text)) (s : State) :
    ∃ w cs n es, s.predictorReturn answer
      = { s with predWaiting := w, predCalls := cs, sideEffects := n, evlog := s.evlog ++ es, strobes := s.strobes ++ es } := by
  rcases h : s.predWaiting with _ | c
  · exact ⟨s.predWaiting, s.predCalls, s.sideEffects, [], by rw [State.predictorReturn_free h]; simp⟩
  · cases answer with
    | none => exact ⟨none, s.predCalls, s.sideEffects, [.predictFail], State.predictorReturn_failed h⟩
    | some lines => exact ⟨none, _, _, [], by rw [State.predictorReturn_lines h]; simp only [List.append_nil]; rfl⟩

/-- A whole wake writes what its call and its return write. -/
theorem State.predictorWake_frame (pick : List Nat) (utc : Text) (answer : Option (List Text)) (s : State) :
    ∃ zs w rd p cs n es, s.predictorWake pick utc answer
      = { s with predLast := zs, predWaiting := w, reads := rd, ports := p, predCalls := cs, sideEffects := n,
                 evlog := s.evlog ++ es, strobes := s.strobes ++ es } := by
  rcases h : s.predWaiting with _ | c
  · obtain ⟨zs, w, rd, p, hc⟩ := s.predictorCall_frame pick utc
    obtain ⟨w', cs, n, es, hr⟩ := (s.predictorCall pick utc).predictorReturn_frame answer
    exact ⟨zs, w', rd, p, cs, n, es, by rw [State.predictorWake_free h, hr, hc]⟩
  · exact ⟨s.predLast, s.predWaiting, s.reads, s.ports, s.predCalls, s.sideEffects, [],
      by rw [State.predictorWake_waiting h]; simp⟩

/-- What a step can write: an operation or a tick does what it does; every other agent's step leaves the sampler, the parameters and
the pins alone, pops `b2a` at most once, pushes commands onto `a2b`, and only adds to the event log; a reset forgets. -/
inductive StepFrame (s : State) : State → Prop where
  | free : s.agenda = [] → StepFrame s (s.begin []).freeTick
  | op (bytes : List Byte) (rest : List Action) (i : Instr) (t : State) : s.agenda = .op bytes :: rest →
      decode bytes = .ok i → ExecCase (s.begin rest) i t → StepFrame s t
  | agent (a : Action) (rest : List Action) (q : Queue) (xs : List Symbol) (st : PanelStatus) (rd : Reads) (n : Nat)
      (tr : List Text) (pl : Vector ZoneRecord 32) (w : Option PredCall) (cs : List PredCall) (m : Nat) (rs : List Request)
      (p : Ports) (ev es : List Event) : s.agenda = a :: rest → a ≠ .rst →
      (q = s.b2a ∨ q = (s.b2a.pop s.params.capB2a).1) → ev = s.evlog ++ es →
      StepFrame s { s with
        b2a := q, a2b := ((s.begin rest).pushSymbols xs).a2b, evlog := ev, strobes := es, status := st, reads := rd
        traceIdx := n, traceOut := tr, predLast := pl, predWaiting := w, predCalls := cs, sideEffects := m
        requests := rs, ports := p, agenda := rest }
  | rst (rest : List Action) : s.agenda = .rst :: rest → StepFrame s (s.begin rest).applyReset

theorem step_frame {s t : State} (h : step s = .next t) : StepFrame s t := by
  cases step_cases h with
  | free ha => exact .free ha
  | op bytes rest i t ha hd hc => exact .op bytes rest i t ha hd hc
  | rst rest ha => exact .rst rest ha
  | request body rest ha => exact .agent _ rest s.b2a [] _ _ _ _ _ _ _ _ _ _ _ [] ha nofun (.inl rfl) (by simp)
  | producerStep pick rest ha =>
    obtain ⟨xs, es, p, rs, rd, e⟩ := (s.begin rest).producerStep_frame pick
    rw [e]; exact .agent _ rest s.b2a xs _ _ _ _ _ _ _ _ _ _ _ es ha nofun (.inl rfl) rfl
  | readBegin who rest ha =>
    obtain ⟨rd, e⟩ := (s.begin rest).readBegin_frame who
    rw [e]; exact .agent _ rest s.b2a [] _ _ _ _ _ _ _ _ _ _ _ [] ha nofun (.inl rfl) (by simp)
  | decoderStep t rest ha =>
    obtain ⟨st, rd, n, tr, p, e⟩ := (s.begin rest).decoderStep_frame t
    rw [e]; exact .agent _ rest _ [] _ _ _ _ _ _ _ _ _ _ _ [] ha nofun (.inr rfl) (by simp)
  | predictorWake pick utc answer rest ha =>
    obtain ⟨zs, w, rd, p, cs, n, es, e⟩ := (s.begin rest).predictorWake_frame pick utc answer
    rw [e]; exact .agent _ rest s.b2a [] _ _ _ _ _ _ _ _ _ _ _ es ha nofun (.inl rfl) rfl
  | predictorCall pick utc rest ha =>
    obtain ⟨zs, w, rd, p, e⟩ := (s.begin rest).predictorCall_frame pick utc
    rw [e]; exact .agent _ rest s.b2a [] _ _ _ _ _ _ _ _ _ _ _ [] ha nofun (.inl rfl) (by simp)
  | predictorReturn answer rest ha =>
    obtain ⟨w, cs, n, es, e⟩ := (s.begin rest).predictorReturn_frame answer
    rw [e]; exact .agent _ rest s.b2a [] _ _ _ _ _ _ _ _ _ _ _ es ha nofun (.inl rfl) rfl

end Sys2Proof.Machine
end

