-- ==== Sys2Proof/Laws/PerInstr.lean ====
section
/-! SUPPORT. What is proved of every operation as syntax, one lemma for each constructor: its bytes begin with a byte that names
its form, and the decoder knows that byte. -/

namespace Sys2Proof.Laws.FormByte

open Sys2Proof

/-- The bytes that name a form. -/
def known : List Nat :=
  [0x01, 0x02, 0x03, 0x04, 0x05, 0x10, 0x11, 0x12, 0x13, 0x14, 0x15, 0x16, 0x17, 0x18, 0x19, 0x1a, 0x1b, 0x1c, 0x1d, 0x1e,
   0x1f, 0x20, 0x21, 0x30, 0x40, 0x41]

/-- The operation's bytes begin with a byte that names a form. -/
def Statement (i : Instr) : Prop := ∃ b rest, encode i = b :: rest ∧ b.toNat ∈ known

theorem decLed (w : Word) : Statement (.decLed w) := ⟨_, _, rfl, by decide⟩
theorem decDatetime (w : Word) : Statement (.decDatetime w) := ⟨_, _, rfl, by decide⟩
theorem decZone1 (w : Word) : Statement (.decZone1 w) := ⟨_, _, rfl, by decide⟩
theorem decZone2 (w : Word) : Statement (.decZone2 w) := ⟨_, _, rfl, by decide⟩
theorem decZone3 (w : Word) : Statement (.decZone3 w) := ⟨_, _, rfl, by decide⟩
theorem decZone4 (w : Word) : Statement (.decZone4 w) := ⟨_, _, rfl, by decide⟩
theorem decFixedProgramMode (w : Word) : Statement (.decFixedProgramMode w) := ⟨_, _, rfl, by decide⟩
theorem decFixedKeypadQuery (w : Word) : Statement (.decFixedKeypadQuery w) := ⟨_, _, rfl, by decide⟩
theorem decFixedUndefined39 (w : Word) : Statement (.decFixedUndefined39 w) := ⟨_, _, rfl, by decide⟩
theorem decFixedUndefined5d (w : Word) : Statement (.decFixedUndefined5d w) := ⟨_, _, rfl, by decide⟩
theorem decFixedUndefined63 (w : Word) : Statement (.decFixedUndefined63 w) := ⟨_, _, rfl, by decide⟩
theorem decFixedUndefined64 (w : Word) : Statement (.decFixedUndefined64 w) := ⟨_, _, rfl, by decide⟩
theorem decFixedUndefined69 (w : Word) : Statement (.decFixedUndefined69 w) := ⟨_, _, rfl, by decide⟩
theorem decFixedUndefinedB1 (w : Word) : Statement (.decFixedUndefinedB1 w) := ⟨_, _, rfl, by decide⟩
theorem decKeypad (w : Word) : Statement (.decKeypad w) := ⟨_, _, rfl, by decide⟩
theorem decKeypadIdle (w : Word) : Statement (.decKeypadIdle w) := ⟨_, _, rfl, by decide⟩
theorem decKeypadButton (w : Word) : Statement (.decKeypadButton w) := ⟨_, _, rfl, by decide⟩
theorem decKeypadUnknown (w : Word) : Statement (.decKeypadUnknown w) := ⟨_, _, rfl, by decide⟩
theorem decOther (w : Word) : Statement (.decOther w) := ⟨_, _, rfl, by decide⟩
theorem enc0 : Statement .enc0 := ⟨_, _, rfl, by decide⟩
theorem enc1 : Statement .enc1 := ⟨_, _, rfl, by decide⟩
theorem enc2 : Statement .enc2 := ⟨_, _, rfl, by decide⟩
theorem enc3 : Statement .enc3 := ⟨_, _, rfl, by decide⟩
theorem enc4 : Statement .enc4 := ⟨_, _, rfl, by decide⟩
theorem enc5 : Statement .enc5 := ⟨_, _, rfl, by decide⟩
theorem enc6 : Statement .enc6 := ⟨_, _, rfl, by decide⟩
theorem enc7 : Statement .enc7 := ⟨_, _, rfl, by decide⟩
theorem enc8 : Statement .enc8 := ⟨_, _, rfl, by decide⟩
theorem enc9 : Statement .enc9 := ⟨_, _, rfl, by decide⟩
theorem encStar : Statement .encStar := ⟨_, _, rfl, by decide⟩
theorem encPound : Statement .encPound := ⟨_, _, rfl, by decide⟩
theorem encStay : Statement .encStay := ⟨_, _, rfl, by decide⟩
theorem encAway : Statement .encAway := ⟨_, _, rfl, by decide⟩
theorem encIdle : Statement .encIdle := ⟨_, _, rfl, by decide⟩
theorem matchB0 : Statement .matchB0 := ⟨_, _, rfl, by decide⟩
theorem matchB1 : Statement .matchB1 := ⟨_, _, rfl, by decide⟩
theorem matchB2 : Statement .matchB2 := ⟨_, _, rfl, by decide⟩
theorem matchB3 : Statement .matchB3 := ⟨_, _, rfl, by decide⟩
theorem matchB4 : Statement .matchB4 := ⟨_, _, rfl, by decide⟩
theorem matchB5 : Statement .matchB5 := ⟨_, _, rfl, by decide⟩
theorem matchB6 : Statement .matchB6 := ⟨_, _, rfl, by decide⟩
theorem matchB7 : Statement .matchB7 := ⟨_, _, rfl, by decide⟩
theorem matchB8 : Statement .matchB8 := ⟨_, _, rfl, by decide⟩
theorem matchB9 : Statement .matchB9 := ⟨_, _, rfl, by decide⟩
theorem matchStar : Statement .matchStar := ⟨_, _, rfl, by decide⟩
theorem matchPound : Statement .matchPound := ⟨_, _, rfl, by decide⟩
theorem matchStay : Statement .matchStay := ⟨_, _, rfl, by decide⟩
theorem matchAway : Statement .matchAway := ⟨_, _, rfl, by decide⟩
theorem matchUnknown (v : BitVec 20) : Statement (.matchUnknown v) := ⟨_, _, rfl, by decide⟩
theorem pollNoneLow : Statement .pollNoneLow := ⟨_, _, rfl, by decide⟩
theorem rise : Statement .rise := ⟨_, _, rfl, by decide⟩
theorem fall : Statement .fall := ⟨_, _, rfl, by decide⟩
theorem pollNoneHigh : Statement .pollNoneHigh := ⟨_, _, rfl, by decide⟩
theorem tick (clk data : Level) : Statement (.tick clk data) := ⟨_, _, rfl, by decide⟩
theorem poll (clk : Level) : Statement (.poll clk) := ⟨_, _, rfl, by decide⟩
theorem boundaryMark : Statement .boundaryMark := ⟨_, _, rfl, by decide⟩
theorem shortFrame : Statement .shortFrame := ⟨_, _, rfl, by decide⟩
theorem validFrame : Statement .validFrame := ⟨_, _, rfl, by decide⟩
theorem resetFrame : Statement .resetFrame := ⟨_, _, rfl, by decide⟩
theorem drive : Statement .drive := ⟨_, _, rfl, by decide⟩
theorem ksample (data : Level) : Statement (.ksample data) := ⟨_, _, rfl, by decide⟩
theorem release : Statement .release := ⟨_, _, rfl, by decide⟩
theorem psample (data : Level) : Statement (.psample data) := ⟨_, _, rfl, by decide⟩
theorem qpushOverwrite (a : Agent) (w : Word) : Statement (.qpushOverwrite a w) := ⟨_, _, rfl, by decide⟩
theorem qpushReject (a : Agent) (w : Word) : Statement (.qpushReject a w) := ⟨_, _, rfl, by decide⟩
theorem qpop (a : Agent) (q : QueueId) : Statement (.qpop a q) := ⟨_, _, rfl, by decide⟩
theorem qcount (q : QueueId) : Statement (.qcount q) := ⟨_, _, rfl, by decide⟩
theorem pinconfig (p : Pin) (d : Dir) : Statement (.pinconfig p d) := ⟨_, _, rfl, by decide⟩
theorem decode (w : Word) : Statement (.decode w) := ⟨_, _, rfl, by decide⟩
theorem encode (sym : BitVec 4) : Statement (.encode sym) := ⟨_, _, rfl, by decide⟩
theorem render : Statement .render := ⟨_, _, rfl, by decide⟩
theorem reqDigits (ds : List (Fin 10)) : Statement (.reqDigits ds) := ⟨_, _, rfl, by decide⟩
theorem reqStar : Statement .reqStar := ⟨_, _, rfl, by decide⟩
theorem reqPound : Statement .reqPound := ⟨_, _, rfl, by decide⟩
theorem reqStay : Statement .reqStay := ⟨_, _, rfl, by decide⟩
theorem reqAway : Statement .reqAway := ⟨_, _, rfl, by decide⟩
theorem reqIdle : Statement .reqIdle := ⟨_, _, rfl, by decide⟩
theorem reqTag : Statement .reqTag := ⟨_, _, rfl, by decide⟩
theorem reqOther (body : List Byte) : Statement (.reqOther body) := ⟨_, _, rfl, by decide⟩
theorem consume (w : Word) (t : Nat) : Statement (.consume w t) := ⟨_, _, rfl, by decide⟩
theorem zonetrack (g : Group) (bitmap : BitVec 32) (t : Nat) : Statement (.zonetrack g bitmap t) := ⟨_, _, rfl, by decide⟩

end Sys2Proof.Laws.FormByte
end

