-- ==== Sys2Proof/Laws/Sampler.lean ====
section
/-! SUPPORT. What the sampler's steps do, once each: the two tests, the samples position by position, a finalisation, a tick in
each phase. -/

namespace Sys2Proof.Machine

variable (s : State)

/-! ### Tests -/

theorem State.boundary_iff : s.boundary = true ↔ s.tMark + 250 < s.now := by
  rw [State.boundary, decide_eq_true_iff]
  show s.now - s.tMark > 250 ↔ _
  omega

theorem State.isShort_iff : s.isShort = true ↔ s.bitcnt < 20 := by simp [State.isShort, Config.minBits]

/-- Without a boundary `BOUNDARY()` answers false. -/
theorem State.boundary_false (h : s.now ≤ s.tMark + 250) : s.boundary = false := by
  rw [← Bool.not_eq_true, State.boundary_iff]; omega

theorem State.isShort_false (h : 20 ≤ s.bitcnt) : s.isShort = false := by
  rw [← Bool.not_eq_true, State.isShort_iff]; omega

/-! ### Samples and the drive -/

theorem lbit_eq (l : Level) : lbit l = decide (l = .low) := by cases l <;> rfl

theorem plevel_eq (b : Bool) : plevel b = if b = false then .high else .low := by cases b <;> rfl

/-- The read-back sample, position by position (R137). -/
theorem State.ksample_bit (l : Level) {p : Nat} (hp : p < 64) :
    (s.ksample l).kbuf.bit p = if p = s.bitcnt then decide (l = .low) else s.kbuf.bit p := by
  show Word.bit (if s.bitcnt < 64 then _ else _) p = _
  by_cases hb : s.bitcnt < 64
  · rw [if_pos hb, Word.setBit_bit _ _ hb hp, lbit_eq]
  · rw [if_neg hb, if_neg (by omega)]

/-- The panel sample, position by position (R138). -/
theorem State.psample_bit (l : Level) {p : Nat} (hp : p < 64) :
    (s.psample l).pbuf.bit p = if p = s.bitcnt then decide (l = .low) else s.pbuf.bit p := by
  show Word.bit (if s.bitcnt < 64 then _ else _) p = _
  by_cases hb : s.bitcnt < 64
  · rw [if_pos hb, Word.setBit_bit _ _ hb hp, lbit_eq]
  · rw [if_neg hb, if_neg (by omega)]

/-- The counter saturates at 64 (R138). -/
theorem State.psample_bitcnt_le (l : Level) (h : s.bitcnt ≤ 64) : (s.psample l).bitcnt = min (s.bitcnt + 1) 64 := by
  show (if s.bitcnt < 64 then _ else _) = _
  split <;> omega

/-- The level the drive leaves on the latch (R136). -/
theorem State.drive_level :
    s.drive.dataDrv = if s.bitcnt < 64 ∧ s.curCmd.bit s.bitcnt = false then .high else .low := by
  show plevel s.nextBit = _
  by_cases h : s.bitcnt < 64
  · simp [State.nextBit, h, plevel_eq]
  · simp [State.nextBit, h, plevel]

/-! ### The end of a frame -/

/-- The events of the two pushes of a valid frame (R134, R288). -/
theorem State.validFrame_events :
    ∃ es, s.validFrame.evlog = s.evlog ++ es ∧ s.validFrame.strobes = s.strobes ++ es ∧ ∀ n, .shortFrame n ∉ es := by
  refine ⟨Event.onlyIf (s.b2a.pushOverwrite s.params.capB2a s.pbuf).2 (.b2aOverrun 0) ++ Event.onlyIf
    ((s.b2a.pushOverwrite s.params.capB2a s.pbuf).1.pushOverwrite s.params.capB2a s.kbuf).2 (.b2aOverrun 1), ?_, ?_, ?_⟩
  · rw [← List.append_assoc]; rfl
  · rw [← List.append_assoc]; rfl
  · intro n
    simp only [Event.onlyIf, List.mem_append, not_or]
    constructor <;> split <;> simp

/-- A finalisation only appends to the log, and what it appends is on the strobes. -/
theorem State.finalise_events : ∃ es, s.finalise.evlog = s.evlog ++ es ∧ s.finalise.strobes = s.strobes ++ es := by
  unfold State.finalise
  split
  · exact ⟨[.shortFrame s.bitcnt], rfl, rfl⟩
  · obtain ⟨es, h1, h2, -⟩ := s.validFrame_events
    exact ⟨es, h1, h2⟩

/-- A rising edge only appends to the log, and what it appends is on the strobes. -/
theorem State.riseWith_events (gap : Bool) :
    ∃ es, (s.riseWith gap).evlog = s.evlog ++ es ∧ (s.riseWith gap).strobes = s.strobes ++ es := by
  cases gap
  · exact ⟨[], by simp [State.riseWith], by simp [State.riseWith]⟩
  · obtain ⟨es, h1, h2⟩ := s.finalise_events
    exact ⟨es, by simp [State.riseWith, h1], by simp [State.riseWith, h2]⟩

/-- The two pushes and the pop of a valid frame keep both queues canonical. -/
theorem State.finalise_wf (h1 : 1 ≤ s.params.capB2a) (h2 : 1 ≤ s.params.capA2b)
    (hb : s.b2a.wf s.params.capB2a = true) (ha : s.a2b.wf s.params.capA2b = true) :
    s.finalise.b2a.wf s.params.capB2a = true ∧ s.finalise.a2b.wf s.params.capA2b = true := by
  rw [State.finalise_b2a, State.finalise_a2b]
  split
  · exact ⟨hb, ha⟩
  · exact ⟨Queue.pushOverwrite_wf _ h1 (Queue.pushOverwrite_wf _ h1 hb), Queue.pop_wf h2 ha⟩

/-! ### A tick in each phase (R140) -/

theorem State.tick_poll (c d : Level) (h : s.phase = .poll) :
    s.tick c d = ({ s with now := s.now + 1 } : State).poll (clkLevel s.params c) := by
  simp only [State.tick, h]

theorem State.tick_kwait (c d : Level) (n : Nat) (h : s.phase = .kwait n) :
    s.tick c d = if n > 1 then { s with now := s.now + 1, phase := .kwait (n - 1) }
      else { ({ s with now := s.now + 1 } : State).ksample d with phase := .hwait 22 } := by
  simp only [State.tick, h]

theorem State.tick_hwait (c d : Level) (n : Nat) (h : s.phase = .hwait n) :
    s.tick c d = if n > 1 then { s with now := s.now + 1, phase := .hwait (n - 1) }
      else { ({ s with now := s.now + 1 } : State).release with phase := .poll } := by
  simp only [State.tick, h]

theorem State.tick_pwait (c d : Level) (n : Nat) (h : s.phase = .pwait n) :
    s.tick c d = if n > 1 then { s with now := s.now + 1, phase := .pwait (n - 1) }
      else { ({ s with now := s.now + 1 } : State).psample d with phase := .poll } := by
  simp only [State.tick, h]

/-- What a poll can do: a rising edge, a falling edge, or nothing (R131). -/
theorem State.poll_cases (c : Level) :
    (s.prevClk = .low ∧ c = .high ∧ s.poll c = s.takeRise) ∨ (s.prevClk = .high ∧ c = .low ∧ s.poll c = s.takeFall) ∨
      (c = s.prevClk ∧ s.poll c = s) := by
  cases h : s.prevClk <;> cases c <;> simp [State.poll, h]

/-- Everything a tick can do (R140): count a wait, take an edge, do nothing, or end a wait with its step. -/
theorem State.tick_cases (c d : Level) :
    (∃ p, s.tick c d = { s with now := s.now + 1, phase := p } ∧ (p = s.phase ∨
        ∃ n, 1 ≤ n ∧ (s.phase = .kwait (n + 1) ∧ p = .kwait n ∨ s.phase = .hwait (n + 1) ∧ p = .hwait n ∨
          s.phase = .pwait (n + 1) ∧ p = .pwait n))) ∨
    (s.phase = .poll ∧ s.prevClk = .low ∧ s.tick c d = ({ s with now := s.now + 1 } : State).takeRise) ∨
    (s.phase = .poll ∧ s.prevClk = .high ∧ s.tick c d = ({ s with now := s.now + 1 } : State).takeFall) ∨
    ((∃ n, s.phase = .kwait n) ∧
      s.tick c d = { ({ s with now := s.now + 1 } : State).ksample d with phase := .hwait 22 }) ∨
    ((∃ n, s.phase = .hwait n) ∧ s.tick c d = { ({ s with now := s.now + 1 } : State).release with phase := .poll }) ∨
    ((∃ n, s.phase = .pwait n) ∧ s.tick c d = { ({ s with now := s.now + 1 } : State).psample d with phase := .poll }) := by
  obtain h | ⟨n, h⟩ | ⟨n, h⟩ | ⟨n, h⟩ :
      s.phase = .poll ∨ (∃ n, s.phase = .kwait n) ∨ (∃ n, s.phase = .hwait n) ∨ ∃ n, s.phase = .pwait n := by
    cases s.phase <;> simp
  · rw [State.tick_poll _ _ _ h]
    rcases State.poll_cases { s with now := s.now + 1 } (clkLevel s.params c) with ⟨h1, -, e⟩ | ⟨h1, -, e⟩ | ⟨-, e⟩
    · exact .inr (.inl ⟨h, h1, e⟩)
    · exact .inr (.inr (.inl ⟨h, h1, e⟩))
    · exact .inl ⟨s.phase, e, .inl rfl⟩
  · rw [State.tick_kwait _ _ _ _ h]
    split
    · exact .inl ⟨_, rfl, .inr ⟨n - 1, by omega, .inl ⟨by rw [h]; congr 1; omega, rfl⟩⟩⟩
    · exact .inr (.inr (.inr (.inl ⟨⟨n, h⟩, rfl⟩)))
  · rw [State.tick_hwait _ _ _ _ h]
    split
    · exact .inl ⟨_, rfl, .inr ⟨n - 1, by omega, .inr (.inl ⟨by rw [h]; congr 1; omega, rfl⟩)⟩⟩
    · exact .inr (.inr (.inr (.inr (.inl ⟨⟨n, h⟩, rfl⟩))))
  · rw [State.tick_pwait _ _ _ _ h]
    split
    · exact .inl ⟨_, rfl, .inr ⟨n - 1, by omega, .inr (.inr ⟨by rw [h]; congr 1; omega, rfl⟩)⟩⟩
    · exact .inr (.inr (.inr (.inr (.inr ⟨⟨n, h⟩, rfl⟩))))

/-! ### Waits -/

/-- A wait for the read-back counts down, whatever the pins show. -/
theorem execAll_kwait (pins : List (Level × Level)) (s : State) (n : Nat) (h : s.phase = .kwait (pins.length + n)) (hn : 1 ≤ n) :
    execAll (tickOps pins) s = .next { s with now := s.now + pins.length, phase := .kwait n } := by
  induction pins generalizing s with
  | nil => simp [tickOps, execAll] at h ⊢; rw [← h]
  | cons p ps ih =>
    show execAll (tickOps ps) (s.tick p.1 p.2) = _
    rw [State.tick_kwait s p.1 p.2 _ h, if_pos (by simp; omega), ih]
    · simp only [List.length_cons, Nat.add_assoc, Nat.add_comm 1]
    · rw [List.length_cons, Nat.add_right_comm]; simp

/-- The hold before the release counts down, whatever the pins show. -/
theorem execAll_hwait (pins : List (Level × Level)) (s : State) (n : Nat) (h : s.phase = .hwait (pins.length + n)) (hn : 1 ≤ n) :
    execAll (tickOps pins) s = .next { s with now := s.now + pins.length, phase := .hwait n } := by
  induction pins generalizing s with
  | nil => simp [tickOps, execAll] at h ⊢; rw [← h]
  | cons p ps ih =>
    show execAll (tickOps ps) (s.tick p.1 p.2) = _
    rw [State.tick_hwait s p.1 p.2 _ h, if_pos (by simp; omega), ih]
    · simp only [List.length_cons, Nat.add_assoc, Nat.add_comm 1]
    · rw [List.length_cons, Nat.add_right_comm]; simp

/-- The wait for the panel sample counts down, whatever the pins show. -/
theorem execAll_pwait (pins : List (Level × Level)) (s : State) (n : Nat) (h : s.phase = .pwait (pins.length + n)) (hn : 1 ≤ n) :
    execAll (tickOps pins) s = .next { s with now := s.now + pins.length, phase := .pwait n } := by
  induction pins generalizing s with
  | nil => simp [tickOps, execAll] at h ⊢; rw [← h]
  | cons p ps ih =>
    show execAll (tickOps ps) (s.tick p.1 p.2) = _
    rw [State.tick_pwait s p.1 p.2 _ h, if_pos (by simp; omega), ih]
    · simp only [List.length_cons, Nat.add_assoc, Nat.add_comm 1]
    · rw [List.length_cons, Nat.add_right_comm]; simp

/-- A run of two lists of operations is the run of the first and then of the second. -/
theorem execAll_append {is js : List Instr} {s t : State} (h : execAll is s = .next t) :
    execAll (is ++ js) s = execAll js t := by
  induction is generalizing s with
  | nil => cases h; rfl
  | cons i is ih =>
    simp only [List.cons_append, execAll] at h ⊢
    cases e : exec i s with
    | next u => rw [e] at h; exact ih h
    | fault f => rw [e] at h; cases h
    | refused r => rw [e] at h; cases h

end Sys2Proof.Machine
end

