-- ==== Sys2Proof/Tests/Slice0.lean ====
section
/-! SUPPORT. The model's own tests: ill-formed terms refused, decoding of words written out from spec/30_encoding.md and
spec/opcode_table.json, and single steps whose expected results are the vectors of spec/95_test_vectors.md (their ids stand in
the comments), R-examples, or hand calculation from the rules. -/

namespace Sys2Proof.Machine

/-- The next state's value of `f`, if there is a next state. -/
def after {α : Type} (r : Result) (f : State → α) : Option α :=
  match r with
  | .next t => some (f t)
  | .fault _ => none
  | .refused _ => none

/-- A state after reset with a change. -/
abbrev s0 : State := State.reset

/-- The star command word (R110). -/
abbrev starWord : Word := 0xff947fffffffffff#64

/-- A responder with a request in progress: two digits still to push. -/
abbrev busyState : State :=
  { s0 with requests := [{ symbols := [.button .d4, .button .d2], json := false }], agenda := [.producerStep []] }

/-- A first word of the LED kind in `b2a`, and two requests with only their responses left. -/
abbrev tornState : State :=
  { s0 with
    b2a := { items := [0x0580800000000000#64], wr := 1, rd := 0 }
    requests := [{ symbols := [], json := false }, { symbols := [], json := true }] }

/-! ### Ill-formed terms are refused, one for each check -/

theorem test_wf_refuses_wrong_led_code : (Instr.decLed 0x0600000000000000#64).wf = false := by decide
theorem test_wf_refuses_wrong_datetime_code : (Instr.decDatetime 0xa400000000000000#64).wf = false := by decide
theorem test_wf_refuses_wrong_zone_codes :
    [Instr.decZone1 0x2d00000000000000#64, .decZone2 0x2700000000000000#64, .decZone3 0x3e00000000000000#64,
      .decZone4 0x3400000000000000#64].map Instr.wf = [false, false, false, false] := by decide
theorem test_wf_refuses_wrong_fixed_codes :
    [Instr.decFixedProgramMode 0x1100000000000000#64, .decFixedKeypadQuery 0x0a00000000000000#64,
      .decFixedUndefined39 0x5d00000000000000#64, .decFixedUndefined5d 0x3900000000000000#64,
      .decFixedUndefined63 0x6400000000000000#64, .decFixedUndefined64 0x6300000000000000#64,
      .decFixedUndefined69 0xb100000000000000#64, .decFixedUndefinedB1 0x6900000000000000#64].map Instr.wf
      = List.replicate 8 false := by decide
theorem test_wf_refuses_keypad_rows :
    [Instr.decKeypad 0xfe00000000000000#64, .decKeypadIdle 0xfffffffffeffffff#64, .decKeypadButton 0xff00000000000000#64,
      .decKeypadButton 0xffffffffffffffff#64, .decKeypadUnknown starWord, .decKeypadUnknown 0xffffffffffffffff#64].map Instr.wf
      = List.replicate 6 false := by decide
theorem test_wf_refuses_other_with_a_known_code : (Instr.decOther 0x0500000000000000#64).wf = false := by decide
theorem test_wf_refuses_match_unknown_of_a_row : (Instr.matchUnknown 0x947ff#20).wf = false := by decide
theorem test_wf_refuses_digit_counts :
    [Instr.reqDigits [], .reqDigits [1, 2, 3, 4, 5]].map Instr.wf = [false, false] := by decide
theorem test_wf_refuses_other_bodies :
    [Instr.reqOther (spelling "star".toList), .reqOther (spelling "42".toList), .reqOther [lineEnd]].map Instr.wf
      = [false, false, false] := by decide
theorem test_wf_refuses_wide_times :
    [Instr.consume 0#64 (2 ^ 64), .zonetrack .g1 0#32 (2 ^ 64)].map Instr.wf = [false, false] := by decide

/-! ### Decoding, a word written out for every constructor -/

/-- The bits of R104's layouts written out: `00000101` then the LED payload; `10100101` `1` `0010` `0110` `00` `1011` `01010`
`01000` `100011`; the zone codes with bitmap `00000101` at positions 41 to 48. -/
theorem test_decode_panel_words :
    [0b0000010110000000100000000000000000000000000000000000000000000000,
     0b1010010110010011000101101010010001000110000000000000000000000000,
     0b0010011100000000000000000000000000000000000000101000000000000000,
     0b0010110100000000000000000000000000000000000000101000000000000000,
     0b0011010000000000000000000000000000000000000000001000000000000000,
     0b0011111000000000000000000000000000000000010000000000000000000000].map (decodeTableWord 64)
      = [some (.decLed 0x0580800000000000#64), some (.decDatetime 0xa59316a446000000#64),
         some (.decZone1 0x2700000000028000#64), some (.decZone2 0x2d00000000028000#64),
         some (.decZone3 0x3400000000008000#64), some (.decZone4 0x3e00000000400000#64)] := by decide

theorem test_decode_fixed_words :
    [0b00001010 <<< 56, 0b00010001 <<< 56, 0b00111001 <<< 56, 0b01011101 <<< 56, 0b01100011 <<< 56, 0b01100100 <<< 56,
     0b01101001 <<< 56, 0b10110001 <<< 56].map (decodeTableWord 64)
      = [some (.decFixedProgramMode 0x0a00000000000000#64), some (.decFixedKeypadQuery 0x1100000000000000#64),
         some (.decFixedUndefined39 0x3900000000000000#64), some (.decFixedUndefined5d 0x5d00000000000000#64),
         some (.decFixedUndefined63 0x6300000000000000#64), some (.decFixedUndefined64 0x6400000000000000#64),
         some (.decFixedUndefined69 0x6900000000000000#64), some (.decFixedUndefinedB1 0xb100000000000000#64)] := by decide

/-- K2, K5, K4 and O1 of the vectors; the keypad kind as a whole under its own format byte (log 6). -/
theorem test_decode_keypad_and_other_words :
    ([0xffffffffff000000, 0xff947ff000000000, 0xff800fffffffffff, 0x0000000000000000].map (decodeTableWord 64)
      = [some (.decKeypadIdle 0xffffffffff000000#64), some (.decKeypadButton 0xff947ff000000000#64),
         some (.decKeypadUnknown 0xff800fffffffffff#64), some (.decOther 0#64)]) ∧
    decode [0x05, 0xff, 0, 0, 0, 0, 0, 0, 0] = .ok (.decKeypad 0xff00000000000000#64) := by decide

/-- The strings of R110, position 0 at the left. -/
theorem test_decode_command_words :
    [0b1111111110000000011111111111111111111111111111111111111111111111,
     0b1111111110000010111111111111111111111111111111111111111111111111,
     0b1111111110000101011111111111111111111111111111111111111111111111,
     0b1111111110000111111111111111111111111111111111111111111111111111,
     0b1111111110001000111111111111111111111111111111111111111111111111,
     0b1111111110001011011111111111111111111111111111111111111111111111,
     0b1111111110001101111111111111111111111111111111111111111111111111,
     0b1111111110001110011111111111111111111111111111111111111111111111].map (decodeTableWord 64)
      = [some .enc0, some .enc1, some .enc2, some .enc3, some .enc4, some .enc5, some .enc6, some .enc7] := by decide
theorem test_decode_command_words_more :
    [0b1111111110010001011111111111111111111111111111111111111111111111,
     0b1111111110010011111111111111111111111111111111111111111111111111,
     0b1111111110010100011111111111111111111111111111111111111111111111,
     0b1111111110010110111111111111111111111111111111111111111111111111,
     0b1111111111010111111111111111111111111111111111111111111111111111,
     0b1111111111011000111111111111111111111111111111111111111111111111,
     0b1111111111111111111111111111111111111111111111111111111111111111].map (decodeTableWord 64)
      = [some .enc8, some .enc9, some .encStar, some .encPound, some .encStay, some .encAway, some .encIdle] := by decide

/-- The button20 patterns of the opcode table. -/
theorem test_decode_button_fields :
    [0b10000000011111111111, 0b10000010111111111111, 0b10000101011111111111, 0b10000111111111111111,
     0b10001000111111111111, 0b10001011011111111111, 0b10001101111111111111, 0b10001110011111111111,
     0b10010001011111111111, 0b10010011111111111111, 0b10010100011111111111, 0b10010110111111111111,
     0b11010111111111111111, 0b11011000111111111111, 0b11111111111111111111].map (decodeTableWord 24)
      = [some .matchB0, some .matchB1, some .matchB2, some .matchB3, some .matchB4, some .matchB5, some .matchB6,
         some .matchB7, some .matchB8, some .matchB9, some .matchStar, some .matchPound, some .matchStay, some .matchAway,
         some (.matchUnknown 0xfffff#20)] := by decide

/-- The clock pairs of R114. -/
theorem test_decode_clock_pairs :
    [0b00, 0b01, 0b10, 0b11].map (decodeTableWord 2)
      = [some .pollNoneLow, some .rise, some .fall, some .pollNoneHigh] := by decide

theorem test_decode_sampler_ops :
    [[0x10, 0b10], [0x11, 1], [0x12], [0x13], [0x14], [0x15], [0x16], [0x17, 0], [0x18], [0x19, 1]].map decode
      = [.ok (.tick .high .low), .ok (.poll .high), .ok .boundaryMark, .ok .shortFrame, .ok .validFrame, .ok .resetFrame,
         .ok .drive, .ok (.ksample .low), .ok .release, .ok (.psample .high)] := by decide

theorem test_decode_port_ops :
    [[0x1a, 0, 0xff, 0x94, 0x7f, 0xff, 0xff, 0xff, 0xff, 0xff], [0x1b, 2, 0, 0, 0, 0, 0, 0, 0, 1], [0x1c, 1, 0], [0x1d, 1],
     [0x1e, 1, 2], [0x1f, 1, 0, 0, 0, 0, 0, 0, 0], [0x20, 15], [0x21]].map decode
      = [.ok (.qpushOverwrite .sampler starWord), .ok (.qpushReject .producer 1#64), .ok (.qpop .decoder .b2a),
         .ok (.qcount .a2b), .ok (.pinconfig .data .bidir), .ok (.decode 0x0100000000000000#64), .ok (.encode 15#4),
         .ok .render] := by decide

/-- Request lines as the network sends them, A1, A5, A6, A7, A8 of the vectors. -/
theorem test_decode_request_lines :
    ["42".toList, "star".toList, "pound".toList, "stay".toList, "away".toList, "idle".toList, "tag".toList].map
        (fun t => decode (lineBytes (spelling t)))
      = [.ok (.reqDigits [4, 2]), .ok .reqStar, .ok .reqPound, .ok .reqStay, .ok .reqAway, .ok .reqIdle, .ok .reqTag] := by
  decide
theorem test_decode_unrecognised_lines :
    ["12345".toList, "STAR".toList, "".toList, " star".toList].map (fun t => decode (lineBytes (spelling t)))
      = [.ok (.reqOther (spelling "12345".toList)), .ok (.reqOther (spelling "STAR".toList)), .ok (.reqOther []),
         .ok (.reqOther (spelling " star".toList))] := by decide

theorem test_decode_host_ops :
    [[0x40, 0, 0, 0, 0, 0, 0, 0, 0, 0, 0, 0, 0, 0, 0, 1, 6], [0x41, 4, 0x80, 0, 0, 0, 0, 0, 0, 0, 0, 0, 0, 105]].map decode
      = [.ok (.consume 0#64 262), .ok (.zonetrack .g4 0x80000000#32 105)] := by decide

theorem test_decode_rejects_by_name :
    [[], [0x99], [0x01, 0], [0x02, 0, 0, 0, 0, 0, 0, 0, 0], [0x03, 0x10, 0, 0], [0x04, 4], [0x11, 2], [0x1c, 9, 0], [0x1d, 2],
     [0x1e, 2, 0], [0x1e, 0, 3], [0x41, 0], [0x05, 0, 0, 0, 0, 0, 0, 0, 0], [0x30, 65], [0x21, 0]].map decode
      = [.error .empty, .error (.unknownOperation 0x99), .error .truncated, .error .notACommandWord, .error .reservedBits,
         .error .reservedBits, .error .badLevel, .error .badAgent, .error .badQueue, .error .badPin, .error .badDirection,
         .error .badGroup, .error .notAKeypadWord, .error .noLineEnd, .error .trailingBytes] := by decide

/-! ### The notation (vectors N1 to N8, W3) -/

theorem test_field_vectors :
    [field starWord 0 8, field starWord 8 20, field starWord 8 32, field 0x2700000000028000#64 41 8,
      field 0x8000000000000000#64 0 1, field 0x0000000000000001#64 63 1]
      = [0xff, 0x947ff, 0x947fffff, 0x05, 1, 1] := by decide
theorem test_bytes_of_word :
    (List.range 8).map (Word.byte 0x2700000000028000#64) = [0x27, 0, 0, 0, 0, 2, 0x80, 0] := by decide
theorem test_inversion :
    (lbit .low, lbit .high, plevel true, plevel false) = (true, false, Level.low, Level.high) := by decide
/-- R103: an unused position must be a position. -/
theorem test_wf_refuses_unused_position :
    ({ defaultProfile with ledUnused := [99] } : Profile).wf = false := by decide
theorem test_default_params_are_well_formed : defaultParams.wf = true := by decide

/-! ### Decode rows (vectors L, T, Z, F, K, O) -/

/-- L5: Ready clear and the five others set. -/
theorem test_decLed_flags :
    after (exec (.decLed 0x057f000000000000#64) s0) (fun t => (t.ports.decOut.led, t.ports.decOut.message.length))
      = some ({ ready := false, error := true, bypass := true, memory := true, armed := true, program := true }, 61) := by
  decide
/-- L1 and X2. -/
theorem test_decLed_message :
    after (exec (.decLed 0x0580800000000000#64) s0) (fun t => t.ports.decOut.message)
      = some "LED Status Ready, ".toList := by decide
/-- T1. -/
theorem test_decDatetime_message :
    after (exec (.decDatetime 0xa59316a446000000#64) s0) (fun t => t.ports.decOut.message)
      = some "Date: 2026-11-10 8:35".toList := by decide
/-- T2: nothing is range-checked. -/
theorem test_decDatetime_not_checked :
    after (exec (.decDatetime 0xa57ffffffe000000#64) s0) (fun t => t.ports.decOut.dt)
      = some { yearHi := 15, yearLo := 15, month := 15, day := 31, hour := 31, minute := 63 } := by decide
/-- Z1 and X1. -/
theorem test_decZone1_zones :
    after (exec (.decZone1 0x2700000000028000#64) s0) (fun t => (t.ports.decOut.zoneBitmap, t.ports.decOut.message))
      = some (0x00000005#32, "Zone1 1, 3, ".toList) := by decide
/-- Z3. -/
theorem test_decZone1_ready :
    after (exec (.decZone1 0x2700000000000000#64) s0) (fun t => t.ports.decOut.message)
      = some "Zone1 Ready ".toList := by decide
/-- Z6, Z7, Z9. -/
theorem test_decZone2_message :
    after (exec (.decZone2 0x2d00000000028000#64) s0) (fun t => t.ports.decOut.message)
      = some "Zone2 9, 11, ".toList := by decide
theorem test_decZone3_message :
    after (exec (.decZone3 0x3400000000008000#64) s0) (fun t => t.ports.decOut.message)
      = some "Zone3 17, ".toList := by decide
theorem test_decZone4_message :
    after (exec (.decZone4 0x3e00000000408000#64) s0) (fun t => t.ports.decOut.message)
      = some "Zone4 25, 32, ".toList := by decide
/-- F1, F3, F4, O1. -/
theorem test_decFixed_messages :
    [Instr.decFixedProgramMode 0x0affffffffffffff#64, .decFixedKeypadQuery 0x1100000000000000#64,
      .decFixedUndefined39 0x3900000000000000#64, .decOther 0xfeffffffffffffff#64].map
        (fun i => after (exec i s0) (fun t => t.ports.decOut.message))
      = [some "Panel Program Mode".toList, some "Keypad query".toList, some "Undefined command from panel".toList,
         some "Unknown command".toList] := by decide
theorem test_decFixedUndefined_kinds :
    [Instr.decFixedUndefined5d 0x5d00000000000000#64, .decFixedUndefined63 0x6300000000000000#64,
      .decFixedUndefined64 0x6400000000000000#64, .decFixedUndefined69 0x6900000000000000#64,
      .decFixedUndefinedB1 0xb100000000000000#64].map (fun i => after (exec i s0) (fun t => t.ports.decOut.kind))
      = List.replicate 5 (some (.fixed .undefined)) := by decide
/-- K2, K3, K7, K6. -/
theorem test_decKeypad_buttons :
    [0xffffffffff000000#64, 0xfffffffffeffffff#64, 0xff947ff7ffffffff#64, 0xff947fefffffffff#64].map
        (fun w => after (exec (.decKeypad w) s0) (fun t => t.ports.decOut.button))
      = [some (.symbol .idle), some .unknown, some (.symbol (.button .star)), some .unknown] := by decide
theorem test_decKeypad_row_messages :
    [Instr.decKeypadIdle 0xffffffffffffffff#64, .decKeypadButton starWord, .decKeypadUnknown 0xff00000000000000#64].map
        (fun i => after (exec i s0) (fun t => t.ports.decOut.message))
      = [some "Keypad to panel: idle".toList, some "Keypad to panel: button star pressed".toList,
         some "Keypad to panel: unknown".toList] := by decide

/-! ### Encode and match rows -/

/-- R110's column of numbers. -/
theorem test_enc_rows :
    [Instr.enc0, .enc1, .enc2, .enc3, .enc4, .enc5, .enc6, .enc7].map (fun i => after (exec i s0) (fun t => t.ports.encWord))
      = [some 0xff807fffffffffff#64, some 0xff82ffffffffffff#64, some 0xff857fffffffffff#64, some 0xff87ffffffffffff#64,
         some 0xff88ffffffffffff#64, some 0xff8b7fffffffffff#64, some 0xff8dffffffffffff#64,
         some 0xff8e7fffffffffff#64] := by decide
theorem test_enc_rows_more :
    [Instr.enc8, .enc9, .encStar, .encPound, .encStay, .encAway, .encIdle].map
        (fun i => after (exec i s0) (fun t => t.ports.encWord))
      = [some 0xff917fffffffffff#64, some 0xff93ffffffffffff#64, some starWord, some 0xff96ffffffffffff#64,
         some 0xffd7ffffffffffff#64, some 0xffd8ffffffffffff#64, some 0xffffffffffffffff#64] := by decide
/-- R232: input 10 is star, 14 and 15 are idle. -/
theorem test_encode_inputs :
    [10#4, 14#4, 15#4].map (fun v => after (exec (.encode v) s0) (fun t => t.ports.encWord))
      = [some starWord, some 0xffffffffffffffff#64, some 0xffffffffffffffff#64] := by decide
theorem test_match_rows :
    [Instr.matchB0, .matchB1, .matchB2, .matchB3, .matchB4, .matchB5, .matchB6, .matchB7, .matchB8, .matchB9, .matchStar,
      .matchPound, .matchStay, .matchAway].map (fun i => after (exec i s0) (fun t => t.ports.matchOut))
      = Button.all.map (fun b => some (some b)) := by decide
/-- R233 with R117: the row of star presents 0x947ff, which no row of another `BTNTAB` equals; there star is another number. -/
theorem test_match_row_other_table :
    [Instr.matchStar, .matchUnknown 0x947fe#20, .matchPound].map (fun i => after (exec i { s0 with
        params := { defaultParams with btnTab := defaultBtnTab.set 10 0x947fe } }) (fun t => t.ports.matchOut))
      = [some none, some (some .star), some (some .pound)] := by decide
/-- The matcher's vectors of section 2.5. -/
theorem test_match_values :
    [0x947fe#20, 0x947ff#20, 0xfffff#20].map (fun v => after (exec (.matchUnknown v) s0) (fun t => t.ports.matchOut))
      = [some none, some (some .star), some none] := by decide

/-! ### Clock pairs and the sampler (vectors S) -/

theorem test_pollNone_changes_nothing :
    (after (exec .pollNoneLow s0) id, after (exec .pollNoneHigh s0) id) = (some s0, some s0) := by decide
/-- R131: a rising edge seen with `prev_clk` low. -/
theorem test_rise_waits_for_read_back :
    after (exec .rise s0) (fun t => (t.prevClk, t.phase)) = some (.high, .kwait 12) := by decide
/-- S16. -/
theorem test_fall_waits_for_sample :
    after (exec .fall { s0 with prevClk := .high }) (fun t => (t.prevClk, t.phase)) = some (.low, .pwait 12) := by decide
/-- S5: a boundary with five bits. -/
theorem test_tick_short_frame :
    after (exec (.tick .high .low) { s0 with now := 1250, tMark := 1000, bitcnt := 5, curCmd := starWord })
        (fun t => (t.evlog, t.bitcnt, t.tMark, t.curCmd, t.dataDrv, t.phase))
      = some ([.shortFrame 5], 0, 1251, starWord, .low, .kwait 12) := by decide
/-- S4: 250 ticks is no boundary. -/
theorem test_tick_window_is_strict :
    after (exec (.tick .high .low) { s0 with now := 1249, tMark := 1000, bitcnt := 5 }) (fun t => (t.evlog, t.bitcnt, t.tMark))
      = some ([], 5, 1250) := by decide
/-- S20: the clock taken on the inverted pin. -/
theorem test_poll_inverted_clock :
    after (exec (.poll .low) { s0 with params := { defaultParams with clkInverted := true } }) (fun t => t.prevClk)
      = some .high := by decide
/-- S10: the mark moves only at a finalisation when `MARK_EVERY_EDGE` is false. -/
theorem test_boundaryMark_parameter :
    after (exec .boundaryMark { s0 with now := 1251, tMark := 1000, params := { defaultParams with markEveryEdge := false } })
        (fun t => (t.ports.boundary, t.tMark)) = some (true, 1000) := by decide
theorem test_boundaryMark_moves_mark :
    after (exec .boundaryMark { s0 with now := 1250, tMark := 1000 }) (fun t => (t.ports.boundary, t.tMark))
      = some (false, 1250) := by decide
/-- S6. -/
theorem test_shortFrame_reports :
    after (exec .shortFrame { s0 with bitcnt := 19 }) (fun t => (t.evlog, t.b2a, t.curCmd))
      = some ([.shortFrame 19], Queue.empty, 0xffffffffffffffff#64) := by decide
/-- S7. -/
theorem test_validFrame_pushes_and_pops :
    after (exec .validFrame { s0 with
        bitcnt := 20, pbuf := 0x2780000000000000#64, kbuf := 0xfffff00000000000#64
        a2b := { items := [starWord], wr := 1, rd := 0 } })
        (fun t => (t.b2a.items, t.a2b.items, t.curCmd, t.evlog))
      = some ([0x2780000000000000#64, 0xfffff00000000000#64], [], starWord, []) := by decide
/-- S24. -/
theorem test_validFrame_overruns :
    after (exec .validFrame { s0 with
        pbuf := 1#64, kbuf := 2#64, params := { defaultParams with capB2a := 1 }, b2a := { items := [7#64], wr := 0, rd := 0 } })
        (fun t => (t.b2a.items, t.evlog)) = some ([2#64], [.b2aOverrun 0, .b2aOverrun 1]) := by decide
/-- R135's example. -/
theorem test_resetFrame_clears :
    after (exec .resetFrame { s0 with now := 5000, bitcnt := 30, pbuf := 9#64, kbuf := 9#64 })
        (fun t => (t.bitcnt, t.pbuf, t.kbuf, t.tMark)) = some (0, 0#64, 0#64, 5000) := by decide
/-- S11. -/
theorem test_drive_bits :
    [9, 11, 12, 63, 64].map
        (fun n => after (exec .drive { s0 with curCmd := starWord, bitcnt := n }) (fun t => t.dataDrv))
      = [some .high, some .low, some .high, some .low, some .low] := by decide
/-- S12 with a fill of one, and S13. -/
theorem test_ksample_stores_inverted :
    after (exec (.ksample .high) { s0 with kbuf := BitVec.allOnes 64, bitcnt := 12 }) (fun t => t.kbuf)
      = some 0xfff7ffffffffffff#64 := by decide
theorem test_ksample_discards_at_64 :
    after (exec (.ksample .low) { s0 with bitcnt := 64 }) (fun t => t.kbuf) = some 0#64 := by decide
/-- S15. -/
theorem test_release_lets_go :
    after (exec .release { s0 with dataDrv := .high }) (fun t => t.dataDrv) = some .low := by decide
/-- S17 and S19. -/
theorem test_psample_stores_and_counts :
    after (exec (.psample .low) { s0 with bitcnt := 8 }) (fun t => (t.pbuf, t.bitcnt))
      = some (0x0080000000000000#64, 9) := by decide
theorem test_psample_saturates :
    after (exec (.psample .low) { s0 with bitcnt := 64 }) (fun t => (t.pbuf, t.bitcnt)) = some (0#64, 64) := by decide

/-! ### Queues (vectors Q) -/

/-- Q2. -/
theorem test_qpushOverwrite_drops_oldest :
    after (exec (.qpushOverwrite .sampler 4#64) { s0 with
        params := { defaultParams with capB2a := 3 }, b2a := { items := [1#64, 2#64, 3#64], wr := 0, rd := 0 } })
        (fun t => (t.b2a, t.ports.b2aOverrun, t.evlog))
      = some ({ items := [2#64, 3#64, 4#64], wr := 1, rd := 1 }, true, []) := by decide
/-- R74: no other agent may push. -/
theorem test_qpushOverwrite_owner :
    exec (.qpushOverwrite .decoder 4#64) s0 = .refused (.notQueueOwner .decoder .b2a) := by rfl
/-- Q5. -/
theorem test_qpushReject_full :
    after (exec (.qpushReject .producer 3#64) { s0 with a2b := { items := [1#64, 2#64], wr := 0, rd := 0 } })
        (fun t => (t.a2b.items, t.ports.a2bOk, t.evlog)) = some ([1#64, 2#64], false, [.a2bFull]) := by decide
/-- Q4. -/
theorem test_qpushReject_ok :
    after (exec (.qpushReject .producer 3#64) s0) (fun t => (t.a2b.items, t.ports.a2bOk, t.evlog))
      = some ([3#64], true, []) := by decide
/-- Q7 and Q8. -/
theorem test_qpop_oldest :
    after (exec (.qpop .decoder .b2a) { s0 with b2a := { items := [2#64, 3#64], wr := 2, rd := 0 } })
        (fun t => (t.b2a.items, t.ports.b2aPop)) = some ([3#64], some 2#64) := by decide
theorem test_qpop_empty :
    after (exec (.qpop .sampler .a2b) s0) (fun t => (t.a2b, t.ports.a2bPop)) = some (Queue.empty, none) := by decide
/-- Q9. -/
theorem test_qcount :
    after (exec (.qcount .b2a) { s0 with b2a := { items := [1#64, 2#64, 3#64], wr := 3, rd := 0 } }) (fun t => t.ports.b2aCount)
      = some 3 := by decide
/-- Q10: the ring's indices and slots. -/
theorem test_ring_overwrite :
    ((Ring.afterReset [0#64, 0#64, 0#64]).calls 3
        [.pushOverwrite 1#64, .pushOverwrite 2#64, .pushOverwrite 3#64, .pushOverwrite 4#64, .pushOverwrite 5#64]).1
      = { slot := [4#64, 5#64, 3#64], wr := 2, rd := 2, n := 3 } := by decide

/-! ### Other ports -/

theorem test_pinconfig :
    after (exec (.pinconfig .clk .output) s0) (fun t => (t.dirClk, t.dirData)) = some (.output, .bidir) := by decide
/-- O2, and a profile in which the LED code is another (R192). -/
theorem test_decode_other :
    after (exec (.decode 0xfeffffffffffffff#64) s0) (fun t => (t.ports.decOut.code, t.ports.decOut.kind))
      = some (0xfe, .other) := by decide
theorem test_decode_other_profile :
    after (exec (.decode 0xfe00000000000000#64) { s0 with
        params := { defaultParams with profile := { defaultProfile with codeLed := 0xfe } } }) (fun t => t.ports.decOut.kind)
      = some .led := by decide
/-- P5's second message. -/
theorem test_render :
    after (exec .render { s0 with ports := { s0.ports with
        decOut := { DecodeOut.neutral 0xff with kind := .keypad, button := .symbol .idle } } }) (fun t => t.ports.decOut.message)
      = some "Keypad to panel: idle".toList := by decide

/-! ### Requests (vectors A, responses of P5) -/

/-- A1 and X4. -/
theorem test_reqDigits_order :
    after (exec (.reqDigits [4, 2]) s0) (fun t => t.a2b.items)
      = some [0xff88ffffffffffff#64, 0xff857fffffffffff#64] := by decide
/-- A9. -/
theorem test_reqDigits_full :
    after (exec (.reqDigits [1, 2, 3, 4]) s0) (fun t => (t.a2b.items, t.evlog))
      = some ([0xff82ffffffffffff#64, 0xff857fffffffffff#64], [.a2bFull, .a2bFull]) := by decide
theorem test_req_names :
    [Instr.reqStar, .reqPound, .reqStay, .reqAway, .reqIdle, .reqTag, .reqOther (spelling "hello".toList)].map
        (fun i => after (exec i s0) (fun t => t.a2b.items))
      = [some [starWord], some [0xff96ffffffffffff#64], some [0xffd7ffffffffffff#64], some [0xffd8ffffffffffff#64],
         some [0xffffffffffffffff#64], some [0xffffffffffffffff#64], some [0xffffffffffffffff#64]] := by decide
/-- The plain response of P5. -/
theorem test_req_plain_response :
    after (exec .reqIdle { s0 with status := { s0.status with
        led := "LED Status Ready, ".toList
        zone := { g1 := "Zone1 Ready ".toList, g2 := [], g3 := [], g4 := "Zone4 32, ".toList } } }) (fun t => t.ports.response)
      = some "LED Status Ready, , Zone1 Ready , , , Zone4 32, ,".toList := by decide
/-- The first and the last characters of the JSON response of P5. -/
theorem test_reqTag_response :
    after (exec .reqTag { s0 with status := { s0.status with obsTime := 106 } })
        (fun t => (t.ports.response.drop 1).take 30)
      = some "\"obsTime\": 106, \"zoneAct\": [0,".toList := by decide

/-- R337 and P2: another agent steps between the two pushes of `42`; the frame pops the first digit before the second is pushed. -/
theorem test_request_is_not_atomic :
    after (stepAll 4 { s0 with agenda :=
        [.request (spelling "42".toList), .producerStep [], .op (encode .validFrame), .producerStep []] })
        (fun t => (t.curCmd, t.a2b.items, t.requests))
      = some (0xff88ffffffffffff#64, [0xff857fffffffffff#64], [{ symbols := [], json := false }]) := by decide
/-- R259: a request does not overtake the one in progress. -/
theorem test_request_waits :
    after (exec .reqStar busyState) (fun t => (t.a2b.items, t.requests.length)) = some ([], 2) := by decide
/-- R174: the level output follows the queue without a strobe. -/
theorem test_count_level :
    after (exec (.qpushReject .producer 3#64) s0) (fun t => (t.countOut .a2b, t.countOut .b2a)) = some (1, 0) := by decide

/-! ### Host operations (P5, V) -/

/-- P5 step 3 as a first word. -/
theorem test_consume_zone :
    after (exec (.consume 0x2700000000028000#64 101) s0)
        (fun t => (t.traceOut, t.status.zone.g1, t.status.zones[0], t.status.zones[1], t.status.zones[2]))
      = some (["1 Zone1 1, 3,  27 00 00 00 00 02 80 00".toList], "Zone1 1, 3, ".toList, { act := 101, deact := 0 },
          { act := 0, deact := 0 }, { act := 101, deact := 0 }) := by decide
/-- P5 step 10: only the observation time moves. -/
theorem test_consume_other :
    after (exec (.consume 0#64 106) s0) (fun t => (t.status, t.traceIdx))
      = some ({ PanelStatus.initial with obsTime := 106 }, 1) := by decide
/-- V4 for zone 32, and V7, the tie of R255, for zone 25. -/
theorem test_zonetrack_inactive :
    after (exec (.zonetrack .g4 0x01000000#32 50) { s0 with status := { s0.status with
        zones := (noZones.set 31 { act := 40, deact := 0 }).set 24 { act := 50, deact := 50 } } })
        (fun t => (t.status.zones[31], t.status.zones[24]))
      = some ({ act := 40, deact := 50 }, { act := 50, deact := 50 }) := by decide

/-! ### Agents, reset, fatal conditions -/

theorem test_step_decoder_consumes :
    after (step { s0 with b2a := { items := [0#64], wr := 1, rd := 0 }, agenda := [.decoderStep 7] })
        (fun t => (t.b2a.items, t.status.obsTime, t.agenda)) = some ([], 7, []) := by decide
/-- R263: a wake that finds no change does not call; one that finds a change calls once, and a line with value 2 triggers. -/
theorem test_step_predictor_calls :
    after (step { s0 with
        status := { s0.status with zones := noZones.set 2 { act := 101, deact := 0 } }
        agenda := [.predictorWake [] "utc".toList (some ["prediction 3: 2".toList])] })
        (fun t => (t.predCalls.length, t.sideEffects, t.predLast[2].act)) = some (1, 1, 101) := by decide
theorem test_step_predictor_no_change :
    after (step { s0 with agenda := [.predictorWake [] "utc".toList none] }) (fun t => (t.predCalls, t.evlog))
      = some ([], []) := by decide
/-- R263: a tick and a decoder step between the call of the collaborator and its return. -/
theorem test_step_predictor_blocks_nobody :
    after (stepAll 4 { s0 with
        status := { s0.status with zones := noZones.set 2 { act := 101, deact := 0 } }
        b2a := { items := [0#64], wr := 1, rd := 0 }
        agenda := [.predictorCall [] "utc".toList, .op (encode (.tick .low .low)), .decoderStep 7, .predictorReturn none] })
        (fun t => (t.now, t.status.obsTime, t.evlog, t.predWaiting)) = some (1, 7, [.predictFail], none) := by decide
/-- R80: one update tears the reads of two responses and of the predictor; each takes the LED string from before it and the
observation time from after it. -/
theorem test_step_reads_of_one_update_are_torn :
    [[.decoderStep 9, .producerStep [0, 1]],
      [.decoderStep 9, .producerStep [1], .producerStep [0, 1]],
      [Action.decoderStep 9, .producerStep [0, 1], .predictorCall [0, 1] []]].map
        (fun l => after (stepAll l.length { tornState with agenda := l })
          (fun t => (t.ports.snapshot.obsTime, t.ports.snapshot.led, t.status.led)))
      = List.replicate 3 (some (9, [], "LED Status Ready, ".toList)) := by decide
/-- R80: a read begun before two updates mixes three versions: the first LED string, the second observation time. -/
theorem test_step_read_over_two_updates :
    after (stepAll 4 { tornState with
        b2a := { items := [0x0580800000000000#64, 0#64], wr := 2, rd := 0 }
        agenda := [.readBegin .responder, .decoderStep 9, .decoderStep 10, .producerStep [1, 2]] })
        (fun t => (t.ports.snapshot.obsTime, t.ports.snapshot.led, t.status.obsTime, t.reads.responder))
      = some (9, [], 10, none) := by decide
/-- R80 with R250: the decoder agent's next step ends its update, and a read begun after that is whole. -/
theorem test_step_update_ends :
    after (stepAll 3 { tornState with agenda := [.decoderStep 9, .decoderStep 10, .producerStep [1, 1]] })
        (fun t => (t.ports.snapshot.obsTime, t.ports.snapshot.led)) = some (9, "LED Status Ready, ".toList) := by decide
theorem test_step_rst :
    after (step { s0 with now := 77, bitcnt := 9, evlog := [.a2bFull], agenda := [.rst] }) id = some s0 := by decide
theorem test_step_fatal : step { s0 with agenda := [.fatal .clock] } = .fault .clock := by rfl
theorem test_step_refuses_bytes : step { s0 with agenda := [.op [0x99]] } = .refused (.notAnOperation [0x99]) := by rfl
theorem test_step_runs_presented_word : step (s0.withFetchWord 64 0xff947fffffffffff) = exec .encStar s0 := by rfl
/-- The strobes of a step go low at the next (R32). -/
theorem test_step_strobes_fall :
    after (step { s0 with strobes := [.a2bFull], evlog := [.a2bFull], agenda := [.op (encode .drive)] })
        (fun t => (t.strobes, t.evlog)) = some ([], [.a2bFull]) := by decide
theorem test_event_ports :
    (({ s0 with bitcnt := 7 } : State).shortFrame.evShort, (s0.report (.b2aOverrun 1)).evOverrun 0,
      (s0.report (.b2aOverrun 1)).evOverrun 1, (s0.report .a2bFull).evA2bFull)
      = (some 7, false, true, true) := by decide
theorem test_instant_carry :
    ({ s := 1, ns := 999990000 } : Instant).advance 20000 = { s := 2, ns := 10000 } := by decide

/-! ### Witnesses: for each obligation with hypotheses, states and operands that meet them together -/

/-- Whether an operation answers a next state. -/
def completes (i : Instr) (s : State) : Bool := (after (exec i s) fun _ => ()).isSome

/-- Parameters with one-element queues. -/
abbrev tinyParams : Params := { defaultParams with capB2a := 1, capA2b := 1 }

/-- A state with every queue of one element full. -/
abbrev fullState : State :=
  { s0 with params := tinyParams, b2a := { items := [7#64], wr := 0, rd := 0 }, a2b := { items := [8#64], wr := 0, rd := 0 } }

/-- FieldIsTheNumberOfItsBits, at the end of the word and with an empty field. -/
theorem witness_field_bounds : (44 + 20 ≤ 64 ∧ 8 ≤ 20) ∧ (64 + 0 ≤ 64 ∧ 0 ≤ 0) := by decide
/-- DecLedCopiesSixBits: Ready without Armed; two words that differ in an unused bit only. -/
theorem witness_led :
    let w : Word := 0x0580800000000000#64
    let v : Word := 0x05c0800000000000#64
    w.bit defaultProfile.ledReady = true ∧ w.bit defaultProfile.ledArmed = false ∧ v ≠ w ∧ field v 0 8 = field w 0 8 ∧
      ∀ p ∈ defaultProfile.ledPositions, v.bit p = w.bit p := by decide
/-- DecFixedRowsGiveTheirMessage, DecOtherReturnsTheCode: two payloads under one code. -/
theorem witness_same_code : field 0x0a00000000000000#64 0 8 = field 0x0affffffffffffff#64 0 8 := by decide
/-- MatchIsExactEquality: well-formed tables, the default button table. -/
theorem witness_match_tables : s0.params.tablesWf = true ∧ s0.params.btnTab = defaultBtnTab := by decide
/-- DecKeypadTestsIdleFirst, KeypadRowsGiveTheirButton, MatchIsExactEquality: the three keypad cases. -/
theorem witness_keypad_cases :
    s0.params.tablesWf = true ∧ idleBits s0.params 0xffffffffff000000#64 ∧
    (¬ idleBits s0.params starWord ∧ buttonField s0.params starWord = s0.params.btn .star) ∧
    (¬ idleBits s0.params 0xff800fffffffffff#64 ∧
      ∀ b ∈ Button.all, buttonField s0.params 0xff800fffffffffff#64 ≠ s0.params.btn b) := by
  unfold idleBits; decide
/-- BuswordRowsLeaveOtherMembersNeutral, OnlyTheNamedOperationsWriteARegister: every row completes. -/
theorem witness_bus_rows_complete : (busRows starWord).all (completes · s0) = true := by decide
/-- DecodeDispatchesOnTheCode: a word for each clause, the last row of the fixed codes and the highest code of no kind. -/
theorem witness_dispatch :
    s0.params.profile.wf = true ∧ field 0x0500000000000000#64 0 8 = s0.params.profile.codeLed ∧
    field 0xa500000000000000#64 0 8 = s0.params.profile.codeDatetime ∧
    field 0x2700000000000000#64 0 8 = s0.params.profile.codeZone.get .g1 ∧
    field 0x3e00000000000000#64 0 8 = s0.params.profile.codeZone.get .g4 ∧
    (field 0xb100000000000000#64 0 8, FixedKind.undefined) ∈ s0.params.profile.fixed ∧
    field starWord 0 8 = 0xff ∧ field 0xfe00000000000000#64 0 8 ∉ s0.params.profile.codes := by decide
/-- CodecAnswersDependOnInputAndTables: two different states with the same tables. -/
theorem witness_same_tables : s0.params = ({ s0 with now := 5 } : State).params ∧ s0 ≠ { s0 with now := 5 } := by decide
/-- RenderWritesTheDefaultTexts: a record of each kind. -/
theorem witness_render_kinds :
    [Instr.decLed 0x0500000000000000#64, .decDatetime 0xa500000000000000#64, .decZone4 0x3e00000000400000#64,
      .decFixedProgramMode 0#64, .decFixedKeypadQuery 0#64, .decFixedUndefined39 0#64, .decKeypadIdle starWord,
      .decOther 0#64].map (fun i => after (exec i s0) fun t => (t.ports.decOut.kind, t.ports.decOut.button))
      = [some (.led, .none), some (.datetime, .none), some (.zone .g4, .none), some (.fixed .programMode, .none),
         some (.fixed .keypadQuery, .none), some (.fixed .undefined, .none), some (.keypad, .symbol .idle),
         some (.other, .none)] := by decide
/-- EncodeInputSelectsTheSymbol, at both ends. -/
theorem witness_encode_inputs :
    (0#4).toNat = (Symbol.button .d0).num.val ∧ (14#4).toNat = Symbol.idle.num.val ∧ (15#4).toNat = 15 := by decide
/-- EncodeThenDecodeGivesTheSymbol, InvariantsHoldAtReset. -/
theorem witness_params : s0.params.wf = true ∧ tinyParams.wf = true := by decide
/-- PollTakesTheEdges, each clause, on both settings of `CLK_INVERTED`. -/
theorem witness_edges :
    let inv : State := { s0 with params := { defaultParams with clkInverted := true }, prevClk := .high }
    (if s0.params.clkInverted then Level.low.flip else .low) = s0.prevClk ∧
    ((if s0.params.clkInverted then Level.high.flip else .high) = .high ∧ s0.prevClk = .low) ∧
    ((if inv.params.clkInverted then Level.high.flip else .high) = .low ∧ inv.prevClk = .high) := by decide
/-- BoundaryIsStrictlyPastTheWindow and ShortFrameKeepsTheCommand, where the clauses meet: 250 and 251 ticks, 19 and 20 bits. -/
theorem witness_boundary :
    (¬ 0 + 250 < 250 ∧ 0 + 250 < 251) ∧ s0.params.markEveryEdge = true ∧
    (({ s0 with now := 251, bitcnt := 19 } : State).now > s0.tMark + 250 ∧ 19 < Config.minBits ∧ 20 ≥ Config.minBits) := by
  decide
/-- ValidFramePushesTwiceAndLoadsOnce, OverwritingPushDropsTheOldest: an empty, and a full queue. -/
theorem witness_b2a_room :
    (1 ≤ s0.params.capB2a ∧ s0.b2a.items.length ≤ s0.params.capB2a) ∧
    (1 ≤ fullState.params.capB2a ∧ fullState.b2a.items.length = fullState.params.capB2a) := by decide
/-- InversionHoldsOnEveryPath at position 63, SamplesStoreAtTheBitCount at 64. -/
theorem witness_positions :
    ({ s0 with bitcnt := 63 } : State).bitcnt < 64 ∧ ({ s0 with bitcnt := 64 } : State).bitcnt ≤ 64 := by decide
/-- TickDoesWhatThePhaseSays: the last tick of a wait and one before it. -/
theorem witness_phases :
    [Phase.kwait 1, .kwait (0 + 2), .hwait 1, .hwait (20 + 2), .pwait 1, .pwait (10 + 2)].map
      (Phase.inRange s0.params) = List.replicate 6 true := by decide
/-- RisingEdgeRunsItsWholeHandler. -/
theorem witness_rising :
    s0.phase = .poll ∧ s0.prevClk = .low ∧ (if s0.params.clkInverted then Level.high.flip else .high) = .high ∧
    1 ≤ s0.params.nK ∧ (List.replicate 11 (Level.low, Level.high)).length = s0.params.nK - 1 ∧
    (List.replicate 22 (Level.low, Level.high)).length = 22 := by decide
/-- FallingEdgeRunsItsWholeHandler. -/
theorem witness_falling :
    let s : State := { s0 with prevClk := .high }
    s.phase = .poll ∧ s.prevClk = .high ∧ (if s.params.clkInverted then Level.low.flip else .low) = .low ∧
    (List.replicate 11 (Level.low, Level.low)).length = 11 := by decide
/-- BitCellsAssembleTheFrame, at the end of the window. -/
theorem witness_cells :
    let s : State := { s0 with now := 250 }
    s.now ≤ s.tMark + 250 ∧ s.tMark ≤ s.now ∧ s.bitcnt = 0 ∧
    ∀ p, p < 64 → s.pbuf.bit p = s.params.bufFill ∧ s.kbuf.bit p = s.params.bufFill := by decide
/-- RejectingPushKeepsWhatIsQueued, RequestRowsPushInOrder: full and not full. -/
theorem witness_a2b_room :
    fullState.a2b.items.length = fullState.params.capA2b ∧ s0.a2b.items.length ≠ s0.params.capA2b ∧
    s0.a2b.items.length ≤ s0.params.capA2b := by decide
/-- CountIsTheOccupancy, StorageStaysCanonical. -/
theorem witness_storage : s0.storageOk = true ∧ fullState.storageOk = true := by decide
/-- OverwriteLaw, RingAnswersAsTheSequence, the smallest queue. -/
theorem witness_small_queue :
    1 ≤ tinyParams.capB2a ∧ s0.b2a.items = [] ∧ (1 ≤ 1 ∧ [5#64].length = 1) := by decide
/-- RequestBodiesAreRecognized: one and four digits, and bodies of the fallback row. -/
theorem witness_bodies :
    (1 ≤ [(9 : Fin 10)].length ∧ [(1 : Fin 10), 2, 3, 4].length ≤ 4) ∧
    ∀ body ∈ [[], spelling "12345".toList, spelling "Star".toList],
      lineEnd ∉ body ∧ body ∉ [bodyStar, bodyPound, bodyStay, bodyAway, bodyIdle, bodyTag] := by decide
theorem witness_no_digits :
    ∀ body ∈ [[], spelling "12345".toList, spelling "Star".toList],
      ∀ ds : List (Fin 10), 1 ≤ ds.length → ds.length ≤ 4 → body ≠ ds.map digitByte := by
  intro body h ds h1 h2 e
  have hl := congrArg List.length e
  have hd := congrArg bodyDigits e
  rw [bodyDigits_map] at hd
  simp only [List.mem_cons, List.not_mem_nil, or_false] at h
  rcases h with rfl | rfl | rfl
  · simp at hl; omega
  · simp [spelling] at hl; omega
  · have hn : bodyDigits (spelling "Star".toList) = none := by decide
    rw [hn] at hd; cases hd
/-- PlainResponseListsTheStrings, OnlyTheNamedOperationsWriteARegister: the request rows complete. -/
theorem witness_request_rows_complete :
    (((nameRows []).map Prod.fst).all (completes · fullState) && completes (.reqDigits [4, 2]) fullState) = true := by decide
/-- RequestRowsPushInOrder: a free and a busy responder, a push to make, and a request presented in steps. -/
theorem witness_requests :
    s0.requests = [] ∧ busyState.requests ≠ [] ∧
    busyState.requests = { symbols := .button .d4 :: [.button .d2], json := false } :: [] ∧
    busyState.agenda = .producerStep [] :: [] ∧
    decode (lineBytes (spelling "42".toList)) = .ok (.reqDigits [4, 2]) ∧ [(4 : Fin 10), 2].length = 2 ∧
    decode (lineBytes bodyTag) = .ok .reqTag ∧ .reqTag ∈ (nameRows bodyTag).map Prod.fst := by decide
/-- PlainResponseListsTheStrings, TagResponseIsTheJsonObject, OverlappingReadMixesWholeFields with the responder: only the response
is left to do. -/
theorem witness_response_left :
    ∀ j : Bool, ({ s0 with requests := [{ symbols := [], json := j }] } : State).requests
      = { symbols := [], json := j } :: [] := by decide
/-- PlainResponseListsTheStrings: the function its premise describes. -/
theorem witness_plain_line : ∃ line : PanelStatus → Text, ∀ st, line st = List.intercalate ", ".toList
    [st.led, st.zone.g1, st.zone.g2, st.zone.g3, st.zone.g4] ++ ",".toList := ⟨_, fun _ => rfl⟩
/-- TagResponseIsTheJsonObject: the function its premise describes. -/
theorem witness_tag_object : ∃ object : PanelStatus → Text, ∀ st, object st =
    [Char.ofNat 0x7b] ++ "\"obsTime\": ".toList ++ Nat.toDigits 10 st.obsTime ++ ", \"zoneAct\": [".toList ++
      List.intercalate ", ".toList ((List.finRange 32).map fun j => Nat.toDigits 10 (st.zones[j].act)) ++
    "], \"zoneDeAct\": [".toList ++
      List.intercalate ", ".toList ((List.finRange 32).map fun j => Nat.toDigits 10 (st.zones[j].deact)) ++
    "]".toList ++ [Char.ofNat 0x7d] := ⟨_, fun _ => rfl⟩
/-- ConsumeUpdatesOnlyTheMatchedStatus: a word of the LED kind, of a zone kind and of neither. -/
theorem witness_consume_kinds :
    [0x0580800000000000#64, 0x2700000000028000#64, 0#64].map
      (fun w => after (exec (.decode w) s0) fun t => t.ports.decOut.kind)
      = [some .led, some (.zone .g1), some .other] := by decide
/-- ZonetrackTouchesOnlyTheGroup, ZoneActivityFollowsTheReports: the first and last zone of a group, reported at time 5. -/
theorem witness_zone :
    (8 * (Group.g4.num - 1) ≤ 24 ∧ 31 < 8 * Group.g4.num) ∧ ¬ (8 * (Group.g4.num - 1) ≤ 23) ∧
    s0.status.zones[31].act ≤ 5 ∧ s0.status.zones[31].deact ≤ 5 ∧ s0.status.zones[31].active = false ∧
    (0x80000000#32).getLsbD 31 = true ∧ (0x80000000#32).getLsbD 24 = false := by decide
/-- StepRunsTheDecodedOperation. -/
theorem witness_step_decodes :
    ({ s0 with agenda := [.op (encode .drive), .rst] } : State).agenda = .op (encode .drive) :: [.rst] ∧
    decode (encode .drive) = .ok .drive := by decide
/-- IdleStepIsATick, EventsAreOnlyAppended, NoStepWritesATable: reset presents nothing and its step has a next state. -/
theorem witness_idle : s0.agenda = [] ∧ s0.agenda.head? ≠ some .rst ∧ ∃ t, step s0 = .next t := by
  exact ⟨rfl, by decide, _, rfl⟩
/-- DecoderStepPopsAndConsumes, both cases. -/
theorem witness_decoder :
    ({ s0 with agenda := [.decoderStep 7] } : State).b2a.items = [] ∧
    ({ fullState with agenda := [.decoderStep 7] } : State).b2a.items = 7#64 :: [] := by decide
/-- PredictorInvokesOnlyOnChange: no call in progress, without a change and with one; a call in progress; a line that holds value 2
for the eighth trigger. -/
theorem witness_predictor :
    let s : State := { s0 with status := { s0.status with zones := noZones.set 2 { act := 101, deact := 0 } } }
    (s0.predWaiting = none ∧ (s0.readOf .predictor []).zones = s0.predLast) ∧
    (s.predWaiting = none ∧ (s.readOf .predictor []).zones ≠ s.predLast) ∧
    ({ s with predWaiting := some (PredCall.on [] s.status) } : State).predWaiting = some (PredCall.on [] s.status) ∧
    (1 ≤ 8 ∧ 8 ≤ 8 ∧ ("prediction ".toList ++ Nat.toDigits 10 8 ++ ": 2".toList) <:+: "x prediction 8: 2".toList) := by decide
/-- OverlappingReadMixesWholeFields: a response left, no call in progress, a word to consume (the tests above run the reads). -/
theorem witness_reads :
    tornState.requests = { symbols := [], json := false } :: [{ symbols := [], json := true }] ∧
    tornState.predWaiting = none ∧ tornState.b2a.items ≠ [] := by decide
/-- ResetForgetsAndFatalConditionsStop: each clause's agenda is one of some state. -/
theorem witness_reset_agenda :
    [Action.rst, .fatal .regmap, .fatal .rtSetup, .fatal .thread, .fatal .clock].all
      (fun a => ({ s0 with agenda := [a] } : State).agenda == [a]) = true := by decide
/-- BufferInvariantIsKept at reset. -/
theorem witness_buffer_inv : s0.BufferInv where
  bitcnt_le := by decide
  pbuf_fill := by
    have h : ∀ p, p < 64 → s0.pbuf.bit p = s0.params.bufFill := by decide
    exact fun p _ => h p
  kbuf_fill := by
    have h : ∀ p, p < 64 → s0.kbuf.bit p = s0.params.bufFill := by decide
    exact fun p _ => h p
  mark_le := by decide
/-- SequenceInvariantIsKept at reset, with nothing presented. -/
theorem witness_sequence_inv : s0.SequenceInv where
  phase_range := rfl
  kbuf_at := by intro _ _; rfl
  released := by intro _; rfl
  clk_high := by rintro ⟨n, h | h⟩ <;> cases h
  clk_low := by rintro ⟨n, h⟩; cases h
  dirs := ⟨rfl, rfl⟩
theorem witness_agents_agenda : ∀ a, s0.agenda.head? = some a → a.isAgents = true := by intro a h; cases h
/-- DecodeOfEncodeIsTheOperation: well-formed operations, operands at their ends. -/
theorem witness_wf :
    [Instr.decLed 0x05ffffffffffffff#64, .decKeypadIdle 0xffffffffffffffff#64, .decKeypadButton starWord,
      .decKeypadUnknown 0xff00000000000000#64, .decOther 0#64, .matchUnknown 0xfffff#20, .reqDigits [0], .reqDigits [9, 9, 9, 9],
      .reqOther [], .consume 0#64 (2 ^ 64 - 1), .zonetrack .g4 0xffffffff#32 0].all Instr.wf = true := by decide

end Sys2Proof.Machine
end

section
/-! Proofs about the constant tables (spec/10_state.md R37, R38): nothing writes the parameters, and the codec's answers read
nothing else of the state. -/

namespace Sys2Proof.Machine

/-! ### The parameters after each shared operation (R37) -/

section ParamsKept
variable (s : State)

@[simp] theorem State.poll_params (c : Level) : (s.poll c).params = s.params := by
  rcases s.poll_cases c with ⟨-, -, e⟩ | ⟨-, -, e⟩ | ⟨-, e⟩ <;> simp [e]

@[simp] theorem State.tick_params (c d : Level) : (s.tick c d).params = s.params := by
  rcases s.tick_cases c d with ⟨p, e, -⟩ | ⟨-, -, e⟩ | ⟨-, -, e⟩ | ⟨-, e⟩ | ⟨-, e⟩ | ⟨-, e⟩ <;> simp [e]

@[simp] theorem State.freeTick_params : s.freeTick.params = s.params := s.tick_params _ _

@[simp] theorem State.portPushOverwrite_params (w : Word) : (s.portPushOverwrite w).params = s.params := rfl

@[simp] theorem State.portPop_params (q : QueueId) : (s.portPop q).params = s.params := by cases q <;> rfl

@[simp] theorem State.configurePin_params (p : Pin) (d : Dir) : (s.configurePin p d).params = s.params := by cases p <;> rfl

@[simp] theorem State.zonetrack_params (g : Group) (m : BitVec 32) (t : Nat) : (s.zonetrack g m t).params = s.params := rfl

@[simp] theorem State.handle_params (xs : List Symbol) (json : Bool) : (s.handle xs json).params = s.params := by
  obtain ⟨ys, es, p, rs, rd, e⟩ := s.handle_frame xs json
  rw [e]

/-- A reset takes its parameters from the state it forgets. -/
@[simp] theorem State.applyReset_params : s.applyReset.params = s.params := rfl

variable {s}

/-- No way an operation makes its next state writes the parameters. -/
theorem ExecCase.params_eq {i : Instr} {t : State} (h : ExecCase s i t) : t.params = s.params := by
  cases h with
  | ports | none => rfl
  | tick c d => exact s.tick_params c d
  | poll c => exact s.poll_params _
  | rise => exact s.takeRise_params
  | request _ xs j _ => exact s.handle_params xs j
  | pop q => exact s.portPop_params q
  | pinconfig p d => exact s.configurePin_params p d
  | fall | boundaryMark | shortFrame | validFrame | resetFrame | drive | ksample | release | psample => simp
  | pushOverwrite | pushReject | consume | zonetrack => simp

end ParamsKept

/-- Settles O52, by the ways a step makes its next state. -/
theorem noStepWritesATable : Obligations.NoStepWritesATable := by
  intro s t h
  cases step_frame h with
  | free => exact (s.begin []).freeTick_params
  | op bytes rest i t ha hd hc => exact hc.params_eq
  | agent => rfl
  | rst rest => exact (s.begin rest).applyReset_params

/-! ### What the codec shows on its ports (R38) -/

@[simp] theorem State.showDecoded_decOut (w : Word) (s : State) : (s.showDecoded w).ports.decOut = decodeWord s.params w := rfl

@[simp] theorem State.showCommand_encWord (x : Symbol) (s : State) :
    (s.showCommand x).ports.encWord = encodeSymbol s.params x := rfl

@[simp] theorem State.showMatch_matchOut (v : Nat) (s : State) : (s.showMatch v).ports.matchOut = matchButton s.params v := rfl

/-- Settles O11: each answer is a function of the input and the parameters. -/
theorem codecAnswersDependOnInputAndTables : Obligations.CodecAnswersDependOnInputAndTables := by
  intro w v n s s' hp
  refine ⟨⟨s.showDecoded w, s'.showDecoded w, rfl, rfl, ?_⟩,
    ⟨s.showCommand (.ofInput v), s'.showCommand (.ofInput v), rfl, rfl, ?_⟩,
    ⟨s.showMatch n.toNat, s'.showMatch n.toNat, rfl, rfl, ?_⟩⟩
  · rw [State.showDecoded_decOut, State.showDecoded_decOut, hp]
  · rw [State.showCommand_encWord, State.showCommand_encWord, hp]
  · rw [State.showMatch_matchOut, State.showMatch_matchOut, hp]

end Sys2Proof.Machine
end

section
/-! Proofs about the storage and the line (spec/20_memory.md R62, R74): the inversion between levels and bits, and who is served
at which end of a queue. -/

namespace Sys2Proof.Machine

/-! ### The inversion (R62) -/

/-- `LOW` leaves the drive exactly on a 1 of the command. -/
theorem State.drive_low_iff (s : State) (h : s.bitcnt < 64) :
    s.drive.dataDrv = .low ↔ s.curCmd.bit s.bitcnt = true := by
  rw [s.drive_level]
  cases hb : s.curCmd.bit s.bitcnt <;> simp [h]

/-- Settles O23, by what each sample stores at `bitcnt` and what the drive puts out from there. -/
theorem inversionHoldsOnEveryPath : Obligations.InversionHoldsOnEveryPath := by
  intro l s h
  refine ⟨⟨s.ksample l, rfl, ?_⟩, ⟨s.psample l, rfl, ?_⟩, ⟨s.drive, rfl, s.drive_low_iff h⟩⟩
  · rw [s.ksample_bit l h, if_pos rfl, decide_eq_true_iff]
  · rw [s.psample_bit l h, if_pos rfl, decide_eq_true_iff]

/-! ### The owners of the queue ends (R74) -/

section QueueOwners
variable (a : Agent) (w : Word) (q : QueueId) (s : State)

/-- An operation guarded by its owner has a next state exactly when the owner asks. -/
theorem guarded_next_iff (c : Prop) [Decidable c] (t : State) (r : Refusal) :
    (∃ u, (if c then .next t else .refused r : Result) = .next u) ↔ c := by
  by_cases h : c <;> simp [h]

theorem exec_qpushOverwrite_next_iff : (∃ t, exec (.qpushOverwrite a w) s = .next t) ↔ a = pusherOf .b2a :=
  guarded_next_iff ..

theorem exec_qpushReject_next_iff : (∃ t, exec (.qpushReject a w) s = .next t) ↔ a = pusherOf .a2b :=
  guarded_next_iff ..

theorem exec_qpop_next_iff : (∃ t, exec (.qpop a q) s = .next t) ↔ a = popperOf q :=
  guarded_next_iff ..

variable {a}

theorem exec_qpushOverwrite_refused (h : a ≠ pusherOf .b2a) :
    exec (.qpushOverwrite a w) s = .refused (.notQueueOwner a .b2a) := if_neg h

theorem exec_qpushReject_refused (h : a ≠ pusherOf .a2b) :
    exec (.qpushReject a w) s = .refused (.notQueueOwner a .a2b) := if_neg h

theorem exec_qpop_refused (h : a ≠ popperOf q) : exec (.qpop a q) s = .refused (.notQueueOwner a q) := if_neg h

end QueueOwners

/-- Settles O34, by the owner each queue operation tests for. -/
theorem onlyOwnersUseAQueueEnd : Obligations.OnlyOwnersUseAQueueEnd := by
  intro a w s
  exact ⟨exec_qpushOverwrite_next_iff a w s, exec_qpop_next_iff a .b2a s, exec_qpushReject_next_iff a w s,
    exec_qpop_next_iff a .a2b s, exec_qpushOverwrite_refused w s, exec_qpop_refused .b2a s,
    exec_qpushReject_refused w s, exec_qpop_refused .a2b s⟩

end Sys2Proof.Machine
end

section
/-! Proofs about the encodings (spec/30_encoding.md R95, R108): the zones of a zone row, and the way of a symbol through the encoder
and back through the decoder. -/

namespace Sys2Proof.Machine

/-! ### The zone rows (R95) -/

/-- A zone row shows the zone record of its own group. -/
theorem exec_zoneRow (g : Group) (w : Word) (s : State) :
    exec (zoneRow g w) s = .next (s.showRecord (decZone g s.params.profile w (startRecord w))) := by
  cases g <;> rfl

/-- The zones of a group lie inside the bitmap. -/
theorem Group.zones_le (g : Group) : 8 * (g.num - 1) + 8 ≤ 32 := by cases g <;> decide

/-- R95: bit i of the zone field stands at the i-th place of the group in the bitmap. -/
theorem decZone_zoneBitmap (g : Group) (p : Profile) (w : Word) (out : DecodeOut) {i : Nat} (hi : i < 8) :
    (decZone g p w out).zoneBitmap.getLsbD (8 * (g.num - 1) + i) = (field w p.zoneOff 8).testBit i :=
  zoneBits_inside (field w p.zoneOff 8) (8 * (g.num - 1)) i hi (Group.zones_le g)

/-- Settles O4, by the record that a zone row shows and the places of its field's bits in the bitmap. -/
theorem decZoneRowsMapBitsToZones : Obligations.DecZoneRowsMapBitsToZones := by
  intro g w s
  exact ⟨_, exec_zoneRow g w s, rfl, rfl, fun _ hi => decZone_zoneBitmap g s.params.profile w (startRecord w) hi⟩

/-! ### A symbol encoded and decoded (R108) -/

/-- The row of a symbol shows the symbol's command word. -/
theorem exec_encRow (x : Symbol) (s : State) : exec (encRow x) s = .next (s.showCommand x) := by
  rcases x with b | _
  · cases b <;> rfl
  · rfl

@[simp] theorem State.showCommand_params (x : Symbol) (s : State) : (s.showCommand x).params = s.params := rfl

/-- The keypad code is none of the other codes of a well-formed profile (R103). -/
theorem Profile.keypadCode_not_mem {p : Profile} (h : p.wf = true) :
    Config.keypadCode ∉ p.singleCodes ++ p.fixed.map Prod.fst := by
  simp only [Profile.wf, Bool.and_eq_true, decide_eq_true_eq, and_assoc] at h
  obtain ⟨hn, -⟩ := h
  exact (List.disjoint_of_nodup_append hn).symm (List.mem_singleton_self _)

/-- A word of the keypad code takes the keypad branch (R92, R192). -/
theorem decodeKind_of_keypadCode {p : Params} (h : p.profile.wf = true) {w : Word} (hw : field w 0 8 = Config.keypadCode) :
    decodeKind p w = decKeypad p w (startRecord w) := by
  have hc : (startRecord w).code = Config.keypadCode := hw
  obtain ⟨hs, hf⟩ := not_or.mp (mt List.mem_append.mpr (Profile.keypadCode_not_mem h))
  have hl : Config.keypadCode ≠ p.profile.codeLed := fun e => hs (by simp [Profile.singleCodes, e])
  have hd : Config.keypadCode ≠ p.profile.codeDatetime := fun e => hs (by simp [Profile.singleCodes, e])
  have hz : zoneGroupOf p.profile Config.keypadCode = none := by
    refine (zoneGroupOf_eq_none _ _).mpr fun g e => hs ?_
    rw [e]
    cases g <;> simp [Profile.singleCodes, PerGroup.get]
  have hx : p.profile.fixed.lookup Config.keypadCode = none :=
    lookup_of_not_mem fun k hk => hf (List.mem_map_of_mem (f := Prod.fst) hk)
  simp only [decodeKind, hc, if_neg hl, if_neg hd, hz, hx, if_pos]

section Keypad
variable (p : Params) (w : Word) (out : DecodeOut)

@[simp] theorem decKeypad_kind : (decKeypad p w out).kind = .keypad := by unfold decKeypad; split <;> rfl

@[simp] theorem decKeypad_code : (decKeypad p w out).code = out.code := by unfold decKeypad; split <;> rfl

end Keypad

section Tables
variable {p : Params} (h : p.tablesWf = true)
include h

/-- R106 (a): the command word of every symbol has the keypad code. -/
theorem Params.cmd_code (x : Symbol) : field (p.cmd x) 0 8 = Config.keypadCode := by
  simp only [Params.tablesWf, Bool.and_eq_true, beq_iff_eq, List.all_eq_true] at h
  obtain ⟨⟨⟨-, hi⟩, -⟩, hb⟩ := h
  cases x with
  | idle => exact hi
  | button b =>
    obtain ⟨⟨hc, -⟩, -⟩ := hb b (Button.mem_all b)
    exact hc

/-- R106 (b): the command word of idle passes the idle test. -/
theorem Params.cmd_idle : field (p.cmd .idle) p.profile.idleOff Config.idleWidth = 0xffffffff := by
  simp only [Params.tablesWf, Bool.and_eq_true, beq_iff_eq] at h
  obtain ⟨⟨-, hi⟩, -⟩ := h
  exact hi

/-- R106 (c): the command word of a button fails the idle test and has the button's row in its button field. -/
theorem Params.cmd_button (b : Button) :
    field (p.cmd (.button b)) p.profile.idleOff Config.idleWidth ≠ 0xffffffff ∧
      field (p.cmd (.button b)) p.profile.btnOff Config.btnWidth = p.btn b := by
  simp only [Params.tablesWf, Bool.and_eq_true, beq_iff_eq, bne_iff_ne, List.all_eq_true] at h
  obtain ⟨-, hb⟩ := h
  obtain ⟨⟨-, hi⟩, hf⟩ := hb b (Button.mem_all b)
  exact ⟨hi, hf⟩

/-- The keypad branch answers a symbol's command word with that symbol. -/
theorem decKeypad_cmd_button (x : Symbol) (out : DecodeOut) : (decKeypad p (p.cmd x) out).button = .symbol x := by
  cases x with
  | idle => rw [decKeypad, if_pos (Params.cmd_idle h)]; rfl
  | button b =>
    obtain ⟨hi, hb⟩ := Params.cmd_button h b
    rw [decKeypad, if_neg hi]
    exact (buttonOut_eq_symbol _ b).mpr ((matchButton_eq_some h _ b).mpr hb)

end Tables

/-- The whole decoder takes a symbol's command word to the record of the keypad branch. -/
theorem decodeWord_cmd {p : Params} (hp : p.profile.wf = true) (ht : p.tablesWf = true) (x : Symbol) :
    decodeWord p (p.cmd x) = withMessage (decKeypad p (p.cmd x) (startRecord (p.cmd x))) :=
  congrArg withMessage (decodeKind_of_keypadCode hp (Params.cmd_code ht x))

/-- Settles O16: the command word of a symbol has the keypad code, and its keypad branch answers with the symbol. -/
theorem encodeThenDecodeGivesTheSymbol : Obligations.EncodeThenDecodeGivesTheSymbol := by
  intro x s h
  simp only [Params.wf, Bool.and_eq_true] at h
  obtain ⟨⟨-, hp⟩, ht⟩ := h
  refine ⟨s.showCommand x, (s.showCommand x).showDecoded (s.params.cmd x), exec_encRow x s, rfl, ?_⟩
  rw [State.showDecoded_decOut, State.showCommand_params, decodeWord_cmd hp ht]
  exact ⟨(decKeypad_code ..).trans (Params.cmd_code ht x), decKeypad_kind .., decKeypad_cmd_button ht x _⟩

end Sys2Proof.Machine
end

section
/-! Proofs about the sampler (spec/40_sampler.md R133, R141): what a rising edge does at the end of a short frame and of a full
one. -/

namespace Sys2Proof.Machine

variable {s : State}

/-! ### The two ends of a frame (R141) -/

theorem State.finalise_of_short (h : s.bitcnt < 20) : s.finalise = s.shortFrame.resetFrame := by
  rw [State.finalise, if_pos (s.isShort_iff.mpr h)]

theorem State.finalise_of_full (h : 20 ≤ s.bitcnt) : s.finalise = s.validFrame.resetFrame := by
  rw [State.finalise, s.isShort_false h, if_neg Bool.false_ne_true]

/-! ### A rising edge with and without a boundary (R131, R141) -/

theorem State.takeRise_of_boundary (h : s.tMark + 250 < s.now) :
    s.takeRise = { ({ s with prevClk := .high } : State).finalise.mark.drive with phase := .kwait s.params.nK } := by
  have hb : ({ s with prevClk := .high } : State).boundary = true := s.boundary_iff.mpr h
  rw [State.takeRise, State.rise, hb]
  rfl

theorem State.takeRise_evlog_of_no_boundary (h : s.now ≤ s.tMark + 250) : s.takeRise.evlog = s.evlog := by
  have hb : ({ s with prevClk := .high } : State).boundary = false := s.boundary_false h
  rw [State.takeRise, State.rise, hb]
  rfl

/-- A rising edge at the end of a short frame: the report, and nothing pushed, popped or loaded. -/
theorem State.takeRise_of_short (hb : s.tMark + 250 < s.now) (hs : s.bitcnt < 20) :
    s.takeRise.evlog = s.evlog ++ [.shortFrame s.bitcnt] ∧ s.takeRise.b2a = s.b2a ∧ s.takeRise.a2b = s.a2b ∧
      s.takeRise.curCmd = s.curCmd := by
  rw [State.takeRise_of_boundary hb, State.finalise_of_short (s := { s with prevClk := .high }) hs]
  exact ⟨rfl, rfl, rfl, rfl⟩

/-- With a full frame a rising edge appends no report of a short one, boundary or not. -/
theorem State.takeRise_events_of_full (h : 20 ≤ s.bitcnt) :
    ∃ es, s.takeRise.evlog = s.evlog ++ es ∧ ∀ n, .shortFrame n ∉ es := by
  by_cases hb : s.tMark + 250 < s.now
  · obtain ⟨es, he, -, hn⟩ := ({ s with prevClk := .high } : State).validFrame_events
    refine ⟨es, ?_, hn⟩
    rw [State.takeRise_of_boundary hb, State.finalise_of_full (s := { s with prevClk := .high }) h]
    exact he
  · exact ⟨[], by rw [State.takeRise_evlog_of_no_boundary (by omega), List.append_nil], by simp⟩

/-- Settles O20, by the branch a rising edge takes at each bit count. -/
theorem shortFrameKeepsTheCommand : Obligations.ShortFrameKeepsTheCommand := by
  intro s
  refine ⟨rfl, s.takeRise, rfl, State.takeRise_of_short, fun h n => ?_⟩
  obtain ⟨es, he, hn⟩ := State.takeRise_events_of_full h
  rw [he, List.drop_left]
  exact hn n

end Sys2Proof.Machine
end

section
/-! Proofs about the queues (spec/41_queues.md R172, R173, R174): what a push that can be rejected, a pop and a count do to the
state. -/

namespace Sys2Proof.Machine

/-! ### The rejecting push (R172) -/

theorem Queue.pushReject_of_full {cap : Nat} {q : Queue} (w : Word) (h : q.items.length = cap) :
    q.pushReject cap w = (q, false) := if_pos ((q.full_iff cap).mpr h)

section RejectingPush
variable {s : State} (w : Word)

/-- A rejected command leaves the queue as it was, answers false and is reported. -/
theorem State.pushCommand_of_full (h : s.a2b.items.length = s.params.capA2b) :
    s.pushCommand w = { s with evlog := s.evlog ++ [.a2bFull], strobes := s.strobes ++ [.a2bFull],
                               ports := { s.ports with a2bOk := false } } := by
  rw [State.pushCommand, Queue.pushReject_of_full w h]
  rfl

/-- An accepted command writes the queue and the answer, and is not reported. -/
theorem State.pushCommand_of_room (h : s.a2b.items.length ≠ s.params.capA2b) :
    s.pushCommand w = { s with a2b := (s.pushCommand w).a2b, ports := { s.ports with a2bOk := true } } := by
  have hok : (s.a2b.pushReject s.params.capA2b w).2 = true := by simp [Queue.pushReject_ok, h]
  simp [State.pushCommand, State.reportAll, hok, Event.onlyIf]

end RejectingPush

/-- Settles O31, by whether the queue is full. -/
theorem rejectingPushKeepsWhatIsQueued : Obligations.RejectingPushKeepsWhatIsQueued := by
  intro w s
  refine ⟨fun hfull => congrArg Host.Outcome.next (State.pushCommand_of_full w hfull), fun hroom => ?_⟩
  refine ⟨s.pushCommand w, rfl, State.pushCommand_of_room w hroom, ?_⟩
  rw [State.pushCommand_items, if_neg hroom]

/-! ### The pop (R173) -/

theorem Queue.pop_of_empty (cap : Nat) {q : Queue} (h : q.items = []) : (q.pop cap).1 = q := by
  rw [Queue.pop, h]

/-- Settles O32, by what the pop of each queue leaves and answers. -/
theorem popTakesTheOldest : Obligations.PopTakesTheOldest := by
  intro s
  constructor
  · exact ⟨s.portPop .b2a, rfl, rfl, Queue.pop_answer .., Queue.pop_items .., Queue.pop_of_empty _⟩
  · exact ⟨s.portPop .a2b, rfl, rfl, Queue.pop_answer .., Queue.pop_items .., Queue.pop_of_empty _⟩

/-! ### The count (R174) -/

/-- The storage of both queues in its canonical form keeps within the capacities. -/
theorem State.items_le_of_storageOk {s : State} (h : s.storageOk = true) :
    s.b2a.items.length ≤ s.params.capB2a ∧ s.a2b.items.length ≤ s.params.capA2b := by
  simp only [State.storageOk, Bool.and_eq_true, Queue.wf_iff] at h
  obtain ⟨⟨-, hb, -⟩, ha, -⟩ := h
  exact ⟨hb, ha⟩

/-- Settles O33: the answer and the level output are the number of elements, which the canonical form bounds. -/
theorem countIsTheOccupancy : Obligations.CountIsTheOccupancy := by
  intro s h
  exact ⟨rfl, rfl, rfl, rfl, State.items_le_of_storageOk h⟩

end Sys2Proof.Machine
end

section
/-! Proofs about the decoder (spec/42_decode.md R192, R193, R194, R203): what the LED, date and keypad rows show, and the row that
`decode` takes for each code. -/

namespace Sys2Proof.Machine

/-! ### The LED row (R193) -/

theorem mem_textIf (x : Char) (c : Bool) (t : Text) : x ∈ textIf c t ↔ c = true ∧ x ∈ t := by cases c <;> simp [textIf]

section LedText
variable {l : Led}

theorem textIsIn_ready_renderLed (h : l.ready = true) : textIsIn "Ready,".toList (renderLed l) = true := by
  have hr : "Ready,".toList <:+: "LED Status ".toList ++ "Ready, ".toList := by decide
  refine (textIsIn_iff _ _).mpr (hr.trans (List.IsPrefix.isInfix ?_))
  unfold renderLed
  rw [if_pos h]
  simp only [List.append_assoc]
  exact (List.prefix_append_right_inj _).mpr (List.prefix_append _ _)

/-- The capital A of `Armed` is in no other part of the LED message. -/
theorem capitalA_not_mem_renderLed (h : l.armed = false) : 'A' ∉ renderLed l := by
  have hReady : 'A' ∉ if l.ready = true then "Ready, ".toList else "Not Ready, ".toList := by split <;> decide
  unfold renderLed
  simp only [List.mem_append, mem_textIf, h, not_or, not_and]
  exact ⟨⟨⟨⟨⟨⟨by decide, hReady⟩, fun _ => by decide⟩, fun _ => by decide⟩, fun _ => by decide⟩,
    fun ha => absurd ha Bool.false_ne_true⟩, fun _ => by decide⟩

theorem textIsIn_armed_renderLed (h : l.armed = false) : textIsIn "Armed,".toList (renderLed l) = false :=
  Bool.eq_false_iff.mpr fun hi => capitalA_not_mem_renderLed h (((textIsIn_iff _ _).mp hi).subset (by decide))

end LedText

/-- R193: the LED record reads the code and the six LED bits of the word, and nothing else of it. -/
theorem decLed_congr (p : Profile) {v w : Word} (hc : field v 0 8 = field w 0 8)
    (hb : ∀ x ∈ p.ledPositions, v.bit x = w.bit x) : decLed p v (startRecord v) = decLed p w (startRecord w) := by
  simp only [Profile.ledPositions, List.forall_mem_cons] at hb
  obtain ⟨hr, he, hby, hm, ha, hp, -⟩ := hb
  simp only [decLed, startRecord, hc, hr, he, hby, hm, ha, hp]

/-- Settles O2: the record shown is `decLed` of the word, and its text has a part for each light that is on. -/
theorem decLedCopiesSixBits : Obligations.DecLedCopiesSixBits := by
  intro w s
  refine ⟨s.showRecord (decLed s.params.profile w (startRecord w)), rfl, rfl, rfl, rfl, rfl, rfl, rfl, rfl, rfl,
    fun hr ha => ⟨textIsIn_ready_renderLed hr, textIsIn_armed_renderLed ha⟩, fun v hc hb => ?_⟩
  exact congrArg (fun out => Host.Outcome.next (s.showRecord out)) (decLed_congr s.params.profile hc hb)

/-! ### The date row (R194) -/

/-- Settles O3: the record shown is `decDatetime` of the word. -/
theorem decDatetimeTakesSixFields : Obligations.DecDatetimeTakesSixFields := by
  intro w s
  exact ⟨s.showRecord (decDatetime s.params.profile w (startRecord w)), rfl, rfl, rfl, rfl, rfl, rfl, rfl, rfl, rfl⟩

/-! ### The keypad row (R203) -/

section KeypadBranches
variable {p : Params} {w : Word} (out : DecodeOut)

theorem decKeypad_of_idle (h : idleBits p w) : decKeypad p w out = decKeypadIdle out := if_pos ((idleBits_iff p w).mpr h)

theorem decKeypad_of_not_idle (h : ¬ idleBits p w) : decKeypad p w out = decKeypadButton p w out :=
  if_neg (mt (idleBits_iff p w).mp h)

theorem decKeypadButton_eq_symbol (h : p.tablesWf = true) (b : Button) :
    (decKeypadButton p w out).button = .symbol (.button b) ↔ buttonField p w = p.btn b :=
  (buttonOut_eq_symbol _ b).trans (matchButton_eq_some h _ b)

theorem decKeypadButton_eq_unknown : (decKeypadButton p w out).button = .unknown ↔ ∀ b, buttonField p w ≠ p.btn b :=
  (buttonOut_eq_unknown _).trans (matchButton_eq_none p _)

end KeypadBranches

/-- Settles O6, by the branch of the idle test and what the matcher answers on the button field. -/
theorem decKeypadTestsIdleFirst : Obligations.DecKeypadTestsIdleFirst := by
  intro w s ht
  refine ⟨s.showRecord (decKeypad s.params w (startRecord w)), rfl, rfl, decKeypad_kind .., fun hi => ?_, fun hi => ?_⟩
  · exact congrArg DecodeOut.button (decKeypad_of_idle (startRecord w) hi)
  · rw [decKeypad_of_not_idle (startRecord w) hi]
    exact ⟨decKeypadButton_eq_symbol (startRecord w) ht, decKeypadButton_eq_unknown (startRecord w)⟩

/-! ### The codes of a profile (R92, R103) -/

theorem PerGroup.get_mem {α : Type} (x : PerGroup α) (g : Group) : x.get g ∈ [x.g1, x.g2, x.g3, x.g4] := by
  cases g <;> simp [PerGroup.get]

theorem Profile.not_mem_singleCodes_iff (p : Profile) (c : Nat) :
    c ∉ p.singleCodes ↔ c ≠ p.codeLed ∧ c ≠ p.codeDatetime ∧ ∀ g, c ≠ p.codeZone.get g := by
  simp only [Profile.singleCodes, List.mem_cons, List.not_mem_nil, or_false, not_or]
  refine and_congr_right fun _ => and_congr_right fun _ => ⟨?_, fun h => ⟨h .g1, h .g2, h .g3, h .g4⟩⟩
  rintro ⟨h1, h2, h3, h4⟩ g
  cases g <;> assumption

section Codes
variable {p : Profile} (h : p.wf = true)
include h

/-- R103: the codes of the kinds differ. -/
theorem Profile.codes_nodup : p.codes.Nodup := by
  simp only [Profile.wf, Bool.and_eq_true, decide_eq_true_eq, and_assoc] at h
  obtain ⟨hn, -⟩ := h
  exact hn

theorem Profile.singleCodes_nodup : p.singleCodes.Nodup := (Profile.codes_nodup h).of_append_left.of_append_left

theorem Profile.fixedCodes_nodup : (p.fixed.map Prod.fst).Nodup := (Profile.codes_nodup h).of_append_left.of_append_right

theorem Profile.fixedCode_not_mem_singleCodes {c : Nat} {k : FixedKind} (hm : (c, k) ∈ p.fixed) : c ∉ p.singleCodes :=
  (List.disjoint_of_nodup_append (Profile.codes_nodup h).of_append_left).symm (List.mem_map_of_mem (f := Prod.fst) hm)

end Codes

/-! ### The branches of the whole decoder (R192) -/

section Branches
variable {p : Params} {w : Word}

theorem decodeKind_of_led (hw : field w 0 8 = p.profile.codeLed) :
    decodeKind p w = decLed p.profile w (startRecord w) := if_pos hw

theorem decodeKind_of_datetime (h : p.profile.wf = true) (hw : field w 0 8 = p.profile.codeDatetime) :
    decodeKind p w = decDatetime p.profile w (startRecord w) := by
  have hc : (startRecord w).code = p.profile.codeDatetime := hw
  obtain ⟨hl, -⟩ := List.nodup_cons.mp (Profile.singleCodes_nodup h)
  have hne : p.profile.codeDatetime ≠ p.profile.codeLed := (List.ne_of_not_mem_cons hl).symm
  simp only [decodeKind, hc, if_neg hne, if_pos]

theorem decodeKind_of_zone (h : p.profile.wf = true) {g : Group} (hw : field w 0 8 = p.profile.codeZone.get g) :
    decodeKind p w = decZone g p.profile w (startRecord w) := by
  have hc : (startRecord w).code = p.profile.codeZone.get g := hw
  obtain ⟨hl, hn⟩ := List.nodup_cons.mp (Profile.singleCodes_nodup h)
  obtain ⟨hd, hz⟩ := List.nodup_cons.mp hn
  have hg := PerGroup.get_mem p.profile.codeZone g
  have hgl : p.profile.codeZone.get g ≠ p.profile.codeLed := ne_of_mem_of_not_mem (List.mem_cons_of_mem _ hg) hl
  have hgd : p.profile.codeZone.get g ≠ p.profile.codeDatetime := ne_of_mem_of_not_mem hg hd
  simp only [decodeKind, hc, if_neg hgl, if_neg hgd, zoneGroupOf_get p.profile g hz]

theorem decodeKind_of_fixed (h : p.profile.wf = true) {k : FixedKind} (hm : (field w 0 8, k) ∈ p.profile.fixed) :
    decodeKind p w = decFixed k (startRecord w) := by
  have hc : (startRecord w).code = field w 0 8 := rfl
  obtain ⟨hl, hd, hz⟩ := (Profile.not_mem_singleCodes_iff _ _).mp (Profile.fixedCode_not_mem_singleCodes h hm)
  simp only [decodeKind, hc, if_neg hl, if_neg hd, (zoneGroupOf_eq_none _ _).mpr hz,
    lookup_of_mem (Profile.fixedCodes_nodup h) hm]

theorem decodeKind_of_no_kind (hl : field w 0 8 ≠ p.profile.codeLed) (hd : field w 0 8 ≠ p.profile.codeDatetime)
    (hz : ∀ g, field w 0 8 ≠ p.profile.codeZone.get g) (hx : ∀ k, (field w 0 8, k) ∉ p.profile.fixed)
    (hk : field w 0 8 ≠ Config.keypadCode) : decodeKind p w = decOther (startRecord w) := by
  have hc : (startRecord w).code = field w 0 8 := rfl
  simp only [decodeKind, hc, if_neg hl, if_neg hd, (zoneGroupOf_eq_none _ _).mpr hz, lookup_of_not_mem hx, if_neg hk]

end Branches

/-! ### The dispatch on the code (R92, R192) -/

theorem exec_decode (w : Word) (s : State) : exec (.decode w) s = .next (s.showRecord (decodeKind s.params w)) := rfl

/-- A fixed row shows the record of its own kind. -/
theorem exec_fixedRow {w : Word} {x : Instr × FixedKind × Text} (hx : x ∈ fixedRows w) (s : State) :
    exec x.1 s = .next (s.showRecord (decFixed x.2.1 (startRecord w))) := by
  simp only [fixedRows, List.mem_cons, List.not_mem_nil, or_false] at hx
  rcases hx with rfl | rfl | rfl | rfl | rfl | rfl | rfl | rfl <;> rfl

/-- Settles O10, by the branch of the decoder that each code takes and the record that the code's row shows. -/
theorem decodeDispatchesOnTheCode : Obligations.DecodeDispatchesOnTheCode := by
  intro w s h
  rw [exec_decode]
  refine ⟨⟨_, rfl, rfl⟩, fun hc => ?_, fun hc => ?_, fun g hc => ?_, fun x hx hc => ?_, fun hc => ?_,
    fun hl hd hz hx hk => ?_⟩
  · rw [decodeKind_of_led hc]; rfl
  · rw [decodeKind_of_datetime h hc]; rfl
  · rw [decodeKind_of_zone h hc, exec_zoneRow]
  · rw [decodeKind_of_fixed h hc, exec_fixedRow hx]
  · rw [decodeKind_of_keypadCode h hc]; rfl
  · rw [decodeKind_of_no_kind hl hd hz hx hk]; rfl

end Sys2Proof.Machine
end

section
/-! Proofs about the encoder (spec/43_encode_matcher.md R230): the word an ENC row shows is its row of `CMDTAB`. -/

namespace Sys2Proof.Machine

/-- R230: to show a symbol is to write its row of `CMDTAB` on `enc_word`, and nothing else. -/
theorem State.showCommand_eq (x : Symbol) (s : State) :
    s.showCommand x = { s with ports := { s.ports with encWord := s.params.cmdTab[x.num] } } := rfl

/-- Settles O13: the row of each symbol shows the symbol, which writes its row of the table on `enc_word`. -/
theorem encodeRowsLookUpTheTable : Obligations.EncodeRowsLookUpTheTable := by
  intro x s
  rw [exec_encRow, State.showCommand_eq]

end Sys2Proof.Machine
end

section
/-! Proofs about the three invariants (spec/40_sampler.md R144, spec/41_queues.md R175): they hold at reset, and each is kept by the
steps that are to keep it. -/

namespace Sys2Proof.Machine

variable {s t : State}

/-! ### The storage (R175, R178) -/

theorem State.storageOk_iff (s : State) :
    s.storageOk = true ↔ s.params.wf = true ∧ s.b2a.wf s.params.capB2a = true ∧ s.a2b.wf s.params.capA2b = true := by
  simp [State.storageOk, and_assoc]

/-- R9: the capacities and the read-back delay of well-formed parameters. -/
theorem Params.wf_ranges {p : Params} (h : p.wf = true) : 12 ≤ p.nK ∧ 1 ≤ p.capB2a ∧ 1 ≤ p.capA2b := by
  simp only [Params.wf, Bool.and_eq_true, decide_eq_true_eq, and_assoc] at h
  obtain ⟨hk, -, hb, ha, -⟩ := h
  exact ⟨hk, hb, ha⟩

/-- With the parameters unchanged the storage stays canonical when each queue does. -/
theorem State.storageOk_of (h : s.storageOk = true) (hp : t.params = s.params)
    (hb : 1 ≤ s.params.capB2a → s.b2a.wf s.params.capB2a = true → t.b2a.wf s.params.capB2a = true)
    (ha : 1 ≤ s.params.capA2b → s.a2b.wf s.params.capA2b = true → t.a2b.wf s.params.capA2b = true) :
    t.storageOk = true := by
  obtain ⟨hw, hsb, hsa⟩ := s.storageOk_iff.mp h
  obtain ⟨-, h1, h2⟩ := Params.wf_ranges hw
  rw [State.storageOk_iff, hp]
  exact ⟨hw, hb h1 hsb, ha h2 hsa⟩

theorem State.validFrame_storageOk (h : s.storageOk = true) : s.validFrame.storageOk = true :=
  State.storageOk_of h rfl (fun hc hb => Queue.pushOverwrite_wf _ hc (Queue.pushOverwrite_wf _ hc hb))
    (fun hc ha => Queue.pop_wf hc ha)

theorem State.finalise_storageOk (h : s.storageOk = true) : s.finalise.storageOk = true := by
  unfold State.finalise
  split
  · exact h
  · exact State.validFrame_storageOk h

theorem State.takeRise_storageOk (h : s.storageOk = true) : s.takeRise.storageOk = true := by
  unfold State.takeRise State.rise State.riseWith
  split
  · exact State.finalise_storageOk (s := { s with prevClk := .high }) h
  · exact h

theorem State.poll_storageOk (c : Level) (h : s.storageOk = true) : (s.poll c).storageOk = true := by
  rcases s.poll_cases c with ⟨-, -, e⟩ | ⟨-, -, e⟩ | ⟨-, e⟩ <;> rw [e]
  · exact State.takeRise_storageOk h
  · exact h
  · exact h

theorem State.tick_storageOk (c d : Level) (h : s.storageOk = true) : (s.tick c d).storageOk = true := by
  rcases s.tick_cases c d with ⟨p, e, -⟩ | ⟨-, -, e⟩ | ⟨-, -, e⟩ | ⟨-, e⟩ | ⟨-, e⟩ | ⟨-, e⟩ <;> rw [e]
  case inr.inl => exact State.takeRise_storageOk (s := { s with now := s.now + 1 }) h
  all_goals exact h

/-- Every way an operation makes its next state keeps the storage canonical. -/
theorem ExecCase.storageOk {i : Instr} (hc : ExecCase s i t) (h : s.storageOk = true) : t.storageOk = true := by
  cases hc with
  | tick c d => exact State.tick_storageOk c d h
  | poll c => exact State.poll_storageOk _ h
  | rise => exact State.takeRise_storageOk h
  | validFrame => exact State.validFrame_storageOk h
  | pushOverwrite w => exact State.storageOk_of h rfl (fun hc hb => Queue.pushOverwrite_wf w hc hb) (fun _ ha => ha)
  | pushReject w => exact State.storageOk_of h rfl (fun _ hb => hb) (fun _ ha => Queue.pushReject_wf w ha)
  | pop q =>
    cases q
    · exact State.storageOk_of h rfl (fun hc hb => Queue.pop_wf hc hb) (fun _ ha => ha)
    · exact State.storageOk_of h rfl (fun _ hb => hb) (fun hc ha => Queue.pop_wf hc ha)
  | request i xs j =>
    obtain ⟨ys, es, p, rs, rd, e⟩ := s.handle_frame xs j
    rw [e]
    exact State.storageOk_of h rfl (fun _ hb => hb) (fun _ ha => s.pushSymbols_wf ys ha)
  | pinconfig p d => cases p <;> exact h
  | ports | none | fall | boundaryMark | shortFrame | resetFrame | drive | ksample | release | psample => exact h
  | consume | zonetrack => exact h

theorem State.resetWith_storageOk {p : Params} (h : p.wf = true) : (State.resetWith p).storageOk = true := by
  obtain ⟨-, hb, ha⟩ := Params.wf_ranges h
  exact (State.storageOk_iff _).mpr ⟨h, Queue.empty_wf hb, Queue.empty_wf ha⟩

/-- Settles O55, by the ways a step makes its next state. -/
theorem storageStaysCanonical : Obligations.StorageStaysCanonical := by
  intro s t h hs
  cases step_frame hs with
  | free => exact State.tick_storageOk (s := s.begin []) _ _ h
  | op bytes rest i t ha hd hc => exact hc.storageOk h
  | agent a rest q xs =>
    rename_i hq _
    refine State.storageOk_of h rfl (fun hc hb => ?_) (fun _ ha => (s.begin rest).pushSymbols_wf xs ha)
    rcases hq with rfl | rfl
    · exact hb
    · exact Queue.pop_wf hc hb
  | rst rest => exact State.resetWith_storageOk (s.storageOk_iff.mp h).1

/-! ### The buffers (R144 (1) to (4)) -/

/-- The buffer invariant is about the counter, the buffers, the mark and `BUF_FILL`. -/
theorem State.BufferInv.congr (h : s.BufferInv) (hp : t.params = s.params) (hb : t.bitcnt = s.bitcnt) (hpb : t.pbuf = s.pbuf)
    (hkb : t.kbuf = s.kbuf) (hm : t.tMark ≤ t.now) : t.BufferInv where
  bitcnt_le := by rw [hb]; exact h.bitcnt_le
  pbuf_fill := by rw [hb, hpb, hp]; exact h.pbuf_fill
  kbuf_fill := by rw [hb, hkb, hp]; exact h.kbuf_fill
  mark_le := hm

/-- An empty frame meets it, with the mark not ahead of the time. -/
theorem State.BufferInv.of_empty (hb : t.bitcnt = 0) (hpb : t.pbuf = fillWord t.params.bufFill)
    (hkb : t.kbuf = fillWord t.params.bufFill) (hm : t.tMark ≤ t.now) : t.BufferInv where
  bitcnt_le := by rw [hb]; omega
  pbuf_fill p _ hp := by rw [hpb, fillWord_bit _ hp]
  kbuf_fill p _ hp := by rw [hkb, fillWord_bit _ hp]
  mark_le := hm

theorem State.ksample_bufferInv (l : Level) (h : s.BufferInv) : (s.ksample l).BufferInv where
  bitcnt_le := h.bitcnt_le
  pbuf_fill := h.pbuf_fill
  kbuf_fill p hlt hp := by
    rw [State.ksample_bitcnt] at hlt
    rw [s.ksample_bit l hp, if_neg (by omega)]
    exact h.kbuf_fill p hlt hp
  mark_le := h.mark_le

theorem State.psample_bufferInv (l : Level) (h : s.BufferInv) : (s.psample l).BufferInv := by
  have hcnt := s.psample_bitcnt_le l h.bitcnt_le
  have hle := h.bitcnt_le
  refine ⟨by omega, fun p hlt hp => ?_, fun p hlt hp => ?_, h.mark_le⟩
  · rw [s.psample_bit l hp, if_neg (by omega)]
    exact h.pbuf_fill p (by omega) hp
  · exact h.kbuf_fill p (by omega) hp

theorem State.mark_bufferInv (h : s.BufferInv) : s.mark.BufferInv := by
  refine h.congr rfl rfl rfl rfl ?_
  have := h.mark_le
  rw [State.mark_tMark, State.mark_now]
  split <;> omega

theorem State.takeRise_bufferInv (h : s.BufferInv) : s.takeRise.BufferInv := by
  have hd : ∀ u : State, u.BufferInv → ({ u.mark.drive with phase := .kwait s.params.nK } : State).BufferInv := fun u hu =>
    (State.mark_bufferInv hu).congr rfl rfl rfl rfl (State.mark_bufferInv hu).mark_le
  unfold State.takeRise State.rise State.riseWith
  split
  · exact hd _ (.of_empty (by simp) (by simp) (by simp) (by simp))
  · exact hd _ (h.congr rfl rfl rfl rfl h.mark_le)

theorem State.poll_bufferInv (c : Level) (h : s.BufferInv) : (s.poll c).BufferInv := by
  rcases s.poll_cases c with ⟨-, -, e⟩ | ⟨-, -, e⟩ | ⟨-, e⟩ <;> rw [e]
  · exact State.takeRise_bufferInv h
  · exact h.congr rfl rfl rfl rfl h.mark_le
  · exact h

theorem State.tick_bufferInv (c d : Level) (h : s.BufferInv) : (s.tick c d).BufferInv := by
  have hn : ({ s with now := s.now + 1 } : State).BufferInv := h.congr rfl rfl rfl rfl (Nat.le_succ_of_le h.mark_le)
  rcases s.tick_cases c d with ⟨p, e, -⟩ | ⟨-, -, e⟩ | ⟨-, -, e⟩ | ⟨-, e⟩ | ⟨-, e⟩ | ⟨-, e⟩ <;> rw [e]
  · exact hn.congr rfl rfl rfl rfl hn.mark_le
  · exact State.takeRise_bufferInv hn
  · exact hn.congr rfl rfl rfl rfl hn.mark_le
  · exact (State.ksample_bufferInv d hn).congr rfl rfl rfl rfl hn.mark_le
  · exact hn.congr rfl rfl rfl rfl hn.mark_le
  · exact (State.psample_bufferInv d hn).congr rfl rfl rfl rfl hn.mark_le

theorem State.freeTick_bufferInv (h : s.BufferInv) : s.freeTick.BufferInv :=
  have ht := State.tick_bufferInv (Config.freeClk s.pinSeq) (Config.freeData s.pinSeq) h
  ht.congr rfl rfl rfl rfl ht.mark_le

/-- Every way an operation makes its next state keeps the buffer invariant. -/
theorem ExecCase.bufferInv {i : Instr} (hc : ExecCase s i t) (h : s.BufferInv) : t.BufferInv := by
  cases hc with
  | tick c d => exact State.tick_bufferInv c d h
  | poll c => exact State.poll_bufferInv _ h
  | rise => exact State.takeRise_bufferInv h
  | boundaryMark => exact State.mark_bufferInv (h.congr rfl rfl rfl rfl h.mark_le)
  | resetFrame => exact .of_empty rfl rfl rfl (Nat.le_refl _)
  | ksample d => exact State.ksample_bufferInv d h
  | psample d => exact State.psample_bufferInv d h
  | request i xs j =>
    obtain ⟨ys, es, p, rs, rd, e⟩ := s.handle_frame xs j
    rw [e]
    exact h.congr rfl rfl rfl rfl h.mark_le
  | pinconfig p d => cases p <;> exact h.congr rfl rfl rfl rfl h.mark_le
  | pop q => cases q <;> exact h.congr rfl rfl rfl rfl h.mark_le
  | none => exact h
  | ports | fall | shortFrame | validFrame | drive | release | pushOverwrite | pushReject | consume | zonetrack =>
    exact h.congr rfl rfl rfl rfl h.mark_le

theorem State.resetWith_bufferInv (p : Params) : (State.resetWith p).BufferInv :=
  .of_empty rfl rfl rfl (Nat.le_refl _)

/-- Settles O56, by the ways a step makes its next state. -/
theorem bufferInvariantIsKept : Obligations.BufferInvariantIsKept := by
  intro s t h hs
  have hb : ∀ rest, (s.begin rest).BufferInv := fun rest => h.congr rfl rfl rfl rfl h.mark_le
  cases step_frame hs with
  | free => exact State.freeTick_bufferInv (hb [])
  | op bytes rest i t ha hd hc => exact hc.bufferInv (hb rest)
  | agent => exact h.congr rfl rfl rfl rfl h.mark_le
  | rst rest => exact (State.resetWith_bufferInv s.params).congr rfl rfl rfl rfl (Nat.le_refl _)

/-! ### The sampler between its steps (R144 (3) and (5), R21, R30) -/

/-- The directions of the pins, which are set once (R30). -/
def State.DirsOk (s : State) : Prop := s.dirClk = .input ∧ s.dirData = .bidir

theorem State.sequenceInv_poll (h : s.phase = .poll) :
    s.SequenceInv ↔ (s.prevClk = .low → s.bitcnt < 64 → s.kbuf.bit s.bitcnt = s.params.bufFill) ∧ s.dataDrv = .low ∧
      s.DirsOk := by
  constructor
  · intro hi
    exact ⟨fun hl => hi.kbuf_at (by simp [State.beforeReadBack, h, hl]), hi.released (.inl h), hi.dirs⟩
  · rintro ⟨hk, hr, hd⟩
    exact ⟨by rw [h]; rfl, by simpa [State.beforeReadBack, h] using hk, fun _ => hr, by simp [h], by simp [h], hd⟩

theorem State.sequenceInv_kwait {n : Nat} (h : s.phase = .kwait n) :
    s.SequenceInv ↔ (1 ≤ n ∧ n ≤ s.params.nK) ∧ (s.bitcnt < 64 → s.kbuf.bit s.bitcnt = s.params.bufFill) ∧
      s.prevClk = .high ∧ s.DirsOk := by
  constructor
  · intro hi
    have hn := hi.phase_range
    rw [h] at hn
    exact ⟨of_decide_eq_true hn, hi.kbuf_at (by simp [State.beforeReadBack, h]), hi.clk_high ⟨n, .inl h⟩, hi.dirs⟩
  · rintro ⟨hn, hk, hc, hd⟩
    exact ⟨by rw [h]; exact decide_eq_true hn, fun _ => hk, by simp [h], fun _ => hc, by simp [h], hd⟩

theorem State.sequenceInv_hwait {n : Nat} (h : s.phase = .hwait n) :
    s.SequenceInv ↔ (1 ≤ n ∧ n ≤ 22) ∧ s.prevClk = .high ∧ s.DirsOk := by
  constructor
  · intro hi
    have hn := hi.phase_range
    rw [h] at hn
    exact ⟨of_decide_eq_true hn, hi.clk_high ⟨n, .inr h⟩, hi.dirs⟩
  · rintro ⟨hn, hc, hd⟩
    exact ⟨by rw [h]; exact decide_eq_true hn, by simp [State.beforeReadBack, h], by simp [h], fun _ => hc, by simp [h], hd⟩

theorem State.sequenceInv_pwait {n : Nat} (h : s.phase = .pwait n) :
    s.SequenceInv ↔ (1 ≤ n ∧ n ≤ 12) ∧ s.dataDrv = .low ∧ s.prevClk = .low ∧ s.DirsOk := by
  constructor
  · intro hi
    have hn := hi.phase_range
    rw [h] at hn
    exact ⟨of_decide_eq_true hn, hi.released (.inr ⟨n, h⟩), hi.clk_low ⟨n, h⟩, hi.dirs⟩
  · rintro ⟨hn, hr, hc, hd⟩
    exact ⟨by rw [h]; exact decide_eq_true hn, by simp [State.beforeReadBack, h], fun _ => hr, by simp [h], fun _ => hc, hd⟩

/-- What does not write the sampler's registers, the parameters or the pins keeps it. -/
theorem State.SequenceInv.congr (h : s.SequenceInv) (hp : t.params = s.params) (hph : t.phase = s.phase)
    (hc : t.prevClk = s.prevClk) (hb : t.bitcnt = s.bitcnt) (hk : t.kbuf = s.kbuf) (hd : t.dataDrv = s.dataDrv)
    (hdirs : t.DirsOk) : t.SequenceInv where
  phase_range := by rw [hph, hp]; exact h.phase_range
  kbuf_at := by rw [State.beforeReadBack, hph, hc, hb, hk, hp]; exact h.kbuf_at
  released := by rw [hph, hd]; exact h.released
  clk_high := by rw [hph, hc]; exact h.clk_high
  clk_low := by rw [hph, hc]; exact h.clk_low
  dirs := hdirs

/-- A rising edge taken from the poll phase begins the wait for the read-back, whose position still holds `BUF_FILL`. -/
theorem State.takeRise_sequenceInv (hK : 1 ≤ s.params.nK) (hp : s.phase = .poll) (hc : s.prevClk = .low) (h : s.SequenceInv) :
    s.takeRise.SequenceInv := by
  obtain ⟨hk, -, hd⟩ := (State.sequenceInv_poll hp).mp h
  refine (State.sequenceInv_kwait s.takeRise_phase).mpr ⟨by simpa using hK, ?_, by simp, by simpa [State.DirsOk] using hd⟩
  cases hg : ({ s with prevClk := .high } : State).boundary
  · simpa [State.takeRise, State.rise, hg] using hk hc
  · intro _
    simp [State.takeRise, State.rise, hg, fillWord_bit]

/-- A panel sample that does not fill the frame counts. -/
theorem State.lt_psample_bitcnt (s : State) (l : Level) (h : (s.psample l).bitcnt < 64) : s.bitcnt < (s.psample l).bitcnt := by
  rw [State.psample_bitcnt] at h ⊢
  split at h
  · next hb => rw [if_pos hb]; omega
  · next hb => exact absurd h hb

/-- One count of a wait, or a poll that takes no edge. -/
theorem State.SequenceInv.countDown {p : Phase} (h : s.SequenceInv) (ht : t = { s with now := s.now + 1, phase := p })
    (hp : p = s.phase ∨ ∃ n, 1 ≤ n ∧ (s.phase = .kwait (n + 1) ∧ p = .kwait n ∨ s.phase = .hwait (n + 1) ∧ p = .hwait n ∨
      s.phase = .pwait (n + 1) ∧ p = .pwait n)) : t.SequenceInv := by
  subst ht
  obtain rfl | ⟨n, hn, ⟨e, rfl⟩ | ⟨e, rfl⟩ | ⟨e, rfl⟩⟩ := hp
  · exact h.congr rfl rfl rfl rfl rfl rfl h.dirs
  · obtain ⟨hr, hrest⟩ := (State.sequenceInv_kwait e).mp h
    exact (State.sequenceInv_kwait rfl).mpr ⟨⟨hn, by show n ≤ s.params.nK; omega⟩, hrest⟩
  · obtain ⟨hr, hrest⟩ := (State.sequenceInv_hwait e).mp h
    exact (State.sequenceInv_hwait rfl).mpr ⟨⟨hn, by omega⟩, hrest⟩
  · obtain ⟨hr, hrest⟩ := (State.sequenceInv_pwait e).mp h
    exact (State.sequenceInv_pwait rfl).mpr ⟨⟨hn, by omega⟩, hrest⟩

theorem State.tick_sequenceInv (c d : Level) (hK : 1 ≤ s.params.nK) (hbuf : s.BufferInv) (h : s.SequenceInv) :
    (s.tick c d).SequenceInv := by
  have hnow : ({ s with now := s.now + 1 } : State).SequenceInv := h.congr rfl rfl rfl rfl rfl rfl h.dirs
  rcases s.tick_cases c d with ⟨p, e, hp⟩ | ⟨hp, hc, e⟩ | ⟨hp, hc, e⟩ | ⟨⟨n, hp⟩, e⟩ | ⟨⟨n, hp⟩, e⟩ | ⟨⟨n, hp⟩, e⟩
  · exact h.countDown e hp
  · rw [e]
    exact State.takeRise_sequenceInv (s := { s with now := s.now + 1 }) hK hp hc hnow
  · obtain ⟨-, hr, hd⟩ := (State.sequenceInv_poll hp).mp h
    rw [e]
    exact (State.sequenceInv_pwait rfl).mpr ⟨by decide, hr, rfl, hd⟩
  · obtain ⟨-, -, hc, hd⟩ := (State.sequenceInv_kwait hp).mp h
    rw [e]
    exact (State.sequenceInv_hwait rfl).mpr ⟨by decide, hc, hd⟩
  · obtain ⟨-, hc, hd⟩ := (State.sequenceInv_hwait hp).mp h
    rw [e]
    exact (State.sequenceInv_poll rfl).mpr ⟨fun hl => absurd (hc.symm.trans hl) nofun, rfl, hd⟩
  · obtain ⟨-, hr, hc, hd⟩ := (State.sequenceInv_pwait hp).mp h
    rw [e]
    refine (State.sequenceInv_poll rfl).mpr ⟨fun _ hlt => hbuf.kbuf_fill _ (s.lt_psample_bitcnt d hlt) hlt, hr, hd⟩

theorem State.freeTick_sequenceInv (hK : 1 ≤ s.params.nK) (hbuf : s.BufferInv) (h : s.SequenceInv) :
    s.freeTick.SequenceInv :=
  have ht := State.tick_sequenceInv (Config.freeClk s.pinSeq) (Config.freeData s.pinSeq) hK hbuf h
  ht.congr rfl rfl rfl rfl rfl rfl ht.dirs

/-- Every way an operation that is no step inside the tick makes its next state keeps the sequence invariant. -/
theorem ExecCase.sequenceInv {i : Instr} (hc : ExecCase s i t) (hi : Instr.isInner i = false) (hK : 1 ≤ s.params.nK)
    (hbuf : s.BufferInv) (h : s.SequenceInv) : t.SequenceInv := by
  cases hc with
  | tick c d => exact State.tick_sequenceInv c d hK hbuf h
  | request i xs j =>
    obtain ⟨ys, es, p, rs, rd, e⟩ := s.handle_frame xs j
    rw [e]
    exact h.congr rfl rfl rfl rfl rfl rfl h.dirs
  | pop q => cases q <;> exact h.congr rfl rfl rfl rfl rfl rfl h.dirs
  | ports | pushReject | consume | zonetrack => exact h.congr rfl rfl rfl rfl rfl rfl h.dirs
  | none i e => rcases e with rfl | rfl <;> cases hi
  | poll | rise | fall | boundaryMark | shortFrame | validFrame | resetFrame | drive | ksample | release | psample => cases hi
  | pushOverwrite | pinconfig => cases hi

theorem State.resetWith_sequenceInv (p : Params) : (State.resetWith p).SequenceInv :=
  (State.sequenceInv_poll rfl).mpr ⟨fun _ h => fillWord_bit _ h, rfl, rfl, rfl⟩

/-- Settles O57, by the ways a step of an agent makes its next state. -/
theorem sequenceInvariantIsKept : Obligations.SequenceInvariantIsKept := by
  intro s t hst hbuf h ha hs
  obtain ⟨hnK, -⟩ := Params.wf_ranges (s.storageOk_iff.mp hst).1
  have hK : 1 ≤ s.params.nK := by omega
  have hb : ∀ rest, (s.begin rest).BufferInv := fun rest => hbuf.congr rfl rfl rfl rfl hbuf.mark_le
  have hq : ∀ rest, (s.begin rest).SequenceInv := fun rest => h.congr rfl rfl rfl rfl rfl rfl h.dirs
  cases step_frame hs with
  | free => exact State.freeTick_sequenceInv hK (hb []) (hq [])
  | op bytes rest i t hag hd hc =>
    have hi := ha (.op bytes) (by rw [hag]; rfl)
    simp only [Action.isAgents, hd, Bool.not_eq_true'] at hi
    exact hc.sequenceInv hi hK (hb rest) (hq rest)
  | agent => exact h.congr rfl rfl rfl rfl rfl rfl h.dirs
  | rst rest => exact (State.resetWith_sequenceInv s.params).congr rfl rfl rfl rfl rfl rfl ⟨rfl, rfl⟩

/-- Settles O58: each invariant, of the reset state. -/
theorem invariantsHoldAtReset : Obligations.InvariantsHoldAtReset := by
  intro p h
  exact ⟨State.resetWith_storageOk h, State.resetWith_bufferInv p, State.resetWith_sequenceInv p⟩

end Sys2Proof.Machine
end

section
/-! Proofs about the operation decoder (spec/30_encoding.md R104, R110, R112, R114 to R117): the bytes of each form are read back as
the row they name. -/

namespace Sys2Proof

/-! ### The bytes of a form -/

theorem decode_busBytes (w : Word) : decode (busBytes w) = .ok (busRow w) := by
  simp [decode, decodeOp, busBytes, takeWord_bytesOfWord_nil, Parsed.map]

theorem decode_commandBytes {w : Word} {i : Instr} (h : commandRow w = some i) : decode (commandBytes w) = .ok i := by
  simp [decode, decodeOp, commandBytes, takeCommand, takeWord_bytesOfWord_nil, Parsed.andThen, h]

theorem decode_buttonBytes {n : Nat} (h : n < 2 ^ 20) : decode (buttonBytes n) = .ok (buttonRow (BitVec.ofNat 20 n)) := by
  have hn : n < 256 ^ 3 := by omega
  have ht : takeButton (bytesOfNum 3 n) = .ok (buttonRow (BitVec.ofNat 20 n), []) := by
    rw [takeButton, takeNum_bytesOfNum_nil 3 n hn]
    exact if_pos h
  simp [decode, decodeOp, buttonBytes, ht]

theorem decode_lineBytes {body : List Byte} (h : lineEnd ∉ body) : decode (lineBytes body) = .ok (classifyRequest body) := by
  simp [decode, decodeOp, lineBytes, takeLine_append body h, Parsed.map]

/-! ### The names of operands -/

section Names
variable (r : List Byte)

@[simp] theorem takeLevel_levelNum (l : Level) : takeLevel (nameByte (levelNum l) :: r) = .ok (l, r) := by cases l <;> rfl

@[simp] theorem takeLevels_levelNum (c d : Level) :
    takeLevels (nameByte (2 * levelNum c + levelNum d) :: r) = .ok ((c, d), r) := by
  cases c <;> cases d <;> rfl

@[simp] theorem takeAgent_agentNum (a : Agent) : takeAgent (nameByte (agentNum a) :: r) = .ok (a, r) := by cases a <;> rfl

@[simp] theorem takeQueue_queueNum (q : QueueId) : takeQueue (nameByte (queueNum q) :: r) = .ok (q, r) := by cases q <;> rfl

@[simp] theorem takePin_pinNum (p : Pin) : takePin (nameByte (pinNum p) :: r) = .ok (p, r) := by cases p <;> rfl

@[simp] theorem takeDir_dirNum (d : Dir) : takeDir (nameByte (dirNum d) :: r) = .ok (d, r) := by cases d <;> rfl

@[simp] theorem takeGroup_num (g : Group) : takeGroup (nameByte g.num :: r) = .ok (g, r) := by cases g <;> rfl

@[simp] theorem takeSym_toNat (v : BitVec 4) : takeSym (nameByte v.toNat :: r) = .ok (v, r) := by
  have hb : (nameByte v.toNat).toNat = v.toNat := by simp [nameByte]; omega
  have hv : v.toNat < 16 := v.isLt
  simp [takeSym, takeNamed, takeByte, hb, symOf, hv]

end Names

/-! ### Rows with an operand of their own -/

/-- A code that is in no row of the table takes the last row. -/
theorem busRow_of_other {w : Word} (h : w.code ∉ rowCodes) : busRow w = .decOther w := by
  unfold busRow
  split <;> simp_all [rowCodes]

/-- A number that is in no row of the table takes the last row. -/
theorem buttonRow_of_unknown {v : BitVec 20} (h : isButtonRow v.toNat = false) : buttonRow v = .matchUnknown v := by
  unfold buttonRow
  split <;> simp_all [isButtonRow, defaultBtnTab]

theorem busRow_of_keypad {w : Word} (h : w.code = 0xff) :
    busRow w = if rowIdle w then .decKeypadIdle w
      else if isButtonRow (field w 8 20) then .decKeypadButton w else .decKeypadUnknown w := by
  simp [busRow, h]

theorem decode_decKeypad {w : Word} (h : w.code = 0xff) : decode (encode (.decKeypad w)) = .ok (.decKeypad w) := by
  simp [decode, decodeOp, encode, takeKeypad, takeWord_bytesOfWord_nil, Parsed.andThen, h]

/-! ### Request lines (R115, R116) -/

/-- No digit is a line end. -/
theorem lineEnd_not_mem_digits (ds : List (Fin 10)) : lineEnd ∉ ds.map digitByte := by
  intro h
  obtain ⟨d, -, e⟩ := List.mem_map.mp h
  have hd := digitByte_range d
  rw [e] at hd
  exact absurd hd (by decide)

/-- The six names (R115). -/
def nameBodies : List (List Byte) := [bodyStar, bodyPound, bodyStay, bodyAway, bodyIdle, bodyTag]

/-- A name is no digits. -/
theorem bodyDigits_of_name {body : List Byte} (h : body ∈ nameBodies) : bodyDigits body = none := by
  revert body; decide

theorem classifyRequest_of_not_name {body : List Byte} (h : body ∉ nameBodies) :
    classifyRequest body = classifyDigits body := by
  simp only [nameBodies, List.mem_cons, List.not_mem_nil, or_false, not_or] at h
  obtain ⟨h1, h2, h3, h4, h5, h6⟩ := h
  simp only [classifyRequest, h1, h2, h3, h4, h5, h6, if_false]

theorem classifyRequest_digits {ds : List (Fin 10)} (h : 1 ≤ ds.length ∧ ds.length ≤ 4) :
    classifyRequest (ds.map digitByte) = .reqDigits ds := by
  have hn : ds.map digitByte ∉ nameBodies := fun hm => by
    simpa [bodyDigits_map] using bodyDigits_of_name hm
  rw [classifyRequest_of_not_name hn, classifyDigits, bodyDigits_map]
  exact if_pos h

/-- A body that spells digits is the characters of these digits. -/
theorem eq_map_of_bodyDigits {body : List Byte} {ds : List (Fin 10)} (h : bodyDigits body = some ds) :
    body = ds.map digitByte := by
  induction body generalizing ds with
  | nil => cases h; rfl
  | cons b bs ih =>
    simp only [bodyDigits, Option.bind_eq_some_iff, Option.map_eq_some_iff] at h
    obtain ⟨d, hd, ds', hds, rfl⟩ := h
    rw [List.map_cons, ← ih hds]
    congr 1
    unfold byteDigit at hd
    split at hd
    · split at hd
      · cases hd
        apply BitVec.eq_of_toNat_eq
        rw [digitByte_toNat]
        show b.toNat = 48 + (b.toNat - 48)
        omega
      · cases hd
    · cases hd

/-- A body that is no name and not one to four digits takes the fallback row. -/
theorem classifyRequest_of_other {body : List Byte} (hn : body ∉ nameBodies)
    (hd : ∀ ds : List (Fin 10), 1 ≤ ds.length → ds.length ≤ 4 → body ≠ ds.map digitByte) :
    classifyRequest body = .reqOther body := by
  rw [classifyRequest_of_not_name hn, classifyDigits]
  split
  · next ds e => exact if_neg fun hl => hd ds hl.1 hl.2 (eq_map_of_bodyDigits e)
  · rfl

/-- Settles O38, by the row of each body. -/
theorem requestBodiesAreRecognized : Obligations.RequestBodiesAreRecognized := by
  refine ⟨decode_lineBytes (by decide), decode_lineBytes (by decide), decode_lineBytes (by decide),
    decode_lineBytes (by decide), decode_lineBytes (by decide), decode_lineBytes (by decide), fun ds h1 h4 => ?_,
    fun body hl hn hd => ?_⟩
  · rw [decode_lineBytes (lineEnd_not_mem_digits ds), classifyRequest_digits ⟨h1, h4⟩]
  · rw [decode_lineBytes hl, classifyRequest_of_other hn hd]

/-! ### The whole decoder -/

/-- Settles O59, by the bytes of each form and the row they name. -/
theorem decodeOfEncodeIsTheOperation : Obligations.DecodeOfEncodeIsTheOperation := by
  intro i h
  cases i
  case decKeypad w => exact decode_decKeypad (by simpa [Instr.wf] using h)
  case decKeypadIdle w =>
    simp only [Instr.wf, Bool.and_eq_true, beq_iff_eq] at h
    obtain ⟨hc, hi⟩ := h
    rw [encode, decode_busBytes, busRow_of_keypad hc, if_pos hi]
  case decKeypadButton w =>
    simp only [Instr.wf, Bool.and_eq_true, beq_iff_eq, Bool.not_eq_true'] at h
    obtain ⟨⟨hc, hi⟩, hb⟩ := h
    rw [encode, decode_busBytes, busRow_of_keypad hc, hi, hb]
    rfl
  case decKeypadUnknown w =>
    simp only [Instr.wf, Bool.and_eq_true, beq_iff_eq, Bool.not_eq_true'] at h
    obtain ⟨⟨hc, hi⟩, hb⟩ := h
    rw [encode, decode_busBytes, busRow_of_keypad hc, hi, hb]
    rfl
  case decOther w =>
    rw [encode, decode_busBytes, busRow_of_other (by simpa [Instr.wf] using h)]
  case matchUnknown v =>
    rw [encode, decode_buttonBytes v.isLt, BitVec.ofNat_toNat, BitVec.setWidth_eq,
      buttonRow_of_unknown (by simpa [Instr.wf] using h)]
  case reqDigits ds =>
    rw [encode, decode_lineBytes (lineEnd_not_mem_digits ds), classifyRequest_digits (of_decide_eq_true h)]
  case reqOther body =>
    simp only [Instr.wf, Bool.and_eq_true, Bool.not_eq_true', decide_eq_true_eq] at h
    obtain ⟨hl, hc⟩ := h
    rw [encode, decode_lineBytes (by simpa using hl), hc]
  case consume w t =>
    have ht : t < 256 ^ 8 := of_decide_eq_true h
    simp [decode, decodeOp, encode, takeWord_bytesOfWord, takeNum_bytesOfNum_nil 8 t ht, Parsed.map, Parsed.andThen]
  case zonetrack g m t =>
    have ht : t < 256 ^ 8 := of_decide_eq_true h
    have hm : m.toNat < 256 ^ 4 := m.isLt
    simp [decode, decodeOp, encode, takeNum_bytesOfNum 4 _ hm, takeNum_bytesOfNum_nil 8 t ht, Parsed.map, Parsed.andThen]
  case decLed | decDatetime | decZone1 | decZone2 | decZone3 | decZone4 | decFixedProgramMode | decFixedKeypadQuery |
      decFixedUndefined39 | decFixedUndefined5d | decFixedUndefined63 | decFixedUndefined64 | decFixedUndefined69 |
      decFixedUndefinedB1 =>
    rw [encode, decode_busBytes, busRow, eq_of_beq h]
    rfl
  case enc0 | enc1 | enc2 | enc3 | enc4 | enc5 | enc6 | enc7 | enc8 | enc9 | encStar | encPound | encStay | encAway | encIdle =>
    exact decode_commandBytes rfl
  case matchB0 | matchB1 | matchB2 | matchB3 | matchB4 | matchB5 | matchB6 | matchB7 | matchB8 | matchB9 | matchStar |
      matchPound | matchStay | matchAway =>
    exact decode_buttonBytes (by decide)
  case reqStar | reqPound | reqStay | reqAway | reqIdle | reqTag => exact decode_lineBytes (by decide)
  case pollNoneLow | rise | fall | pollNoneHigh | boundaryMark | shortFrame | validFrame | resetFrame | drive | release | render =>
    rfl
  all_goals
    simp [decode, decodeOp, encode, takeWord_bytesOfWord_nil, Parsed.map, Parsed.andThen]

/-- Settles O60: each word is the encoding of its operation. -/
theorem writtenWordsDecodeRight : Obligations.WrittenWordsDecodeRight := by
  unfold Obligations.WrittenWordsDecodeRight
  decide

end Sys2Proof
end

section
/-! Proofs about fields and the codec (spec/00_scope.md R13, spec/20_memory.md R67, R68, spec/42_decode.md R191 to R208,
spec/43_encode_matcher.md R232, R233): what a field is, what the busword rows show, the texts of a record, and the matcher. -/

namespace Sys2Proof

/-! ### Fields (R13, R67, R68) -/

/-- R13: a field is the sum of its bits, the first position being the most significant. -/
theorem field_eq_sum (w : Word) (off n : Nat) :
    field w off n = ∑ k ∈ Finset.range n, (w.bit (off + k)).toNat * 2 ^ (n - 1 - k) := by
  induction n with
  | zero => rfl
  | succ n ih =>
    rw [field, ih, Finset.sum_range_succ, Finset.mul_sum]
    congr 1
    · refine Finset.sum_congr rfl fun k hk => ?_
      have hk := Finset.mem_range.mp hk
      rw [show n + 1 - 1 - k = (n - 1 - k) + 1 by omega, Nat.pow_succ]
      ring
    · simp

/-- R67: the whole word as a field is its number. -/
theorem field_whole (w : Word) : field w 0 64 = w.toNat := by
  rw [field_eq w 0 64 (by decide)]
  simpa using Nat.mod_eq_of_lt w.isLt

/-- A field is what its first bits are followed by the others. -/
theorem field_add_div (w : Word) (off m d : Nat) : field w off (m + d) / 2 ^ d = field w off m := by
  induction d with
  | zero => simp
  | succ d ih =>
    have hbit := Bool.toNat_le (w.bit (off + (m + d)))
    rw [Nat.add_succ, field, Nat.pow_succ', ← Nat.div_div_eq_div_mul,
      show (2 * field w off (m + d) + (w.bit (off + (m + d))).toNat) / 2 = field w off (m + d) by omega, ih]

/-- Settles O1, by the recursion of `field` on the number of bits. -/
theorem fieldIsTheNumberOfItsBits : Obligations.FieldIsTheNumberOfItsBits := by
  intro w off n _
  refine ⟨field_eq_sum w off n, field_whole w, fun m hm => ?_⟩
  obtain ⟨d, rfl⟩ := Nat.exists_eq_add_of_le hm
  rw [Nat.add_sub_cancel_left, field_add_div]

end Sys2Proof

namespace Sys2Proof.Machine

/-! ### The fixed rows and the row of any other code (R200 to R202, R207) -/

/-- The records of the fixed rows in order, each of its own kind. -/
theorem fixedRows_map_exec (w : Word) (s : State) :
    (fixedRows w).map (fun x => exec x.1 s)
      = (fixedRows w).map fun x => .next (s.showRecord (decFixed x.2.1 (startRecord w))) :=
  List.map_congr_left fun _ hx => exec_fixedRow hx s

/-- The message of a fixed row is the text of its kind. -/
theorem renderFixed_of_mem {w : Word} {x : Instr × FixedKind × Text} (hx : x ∈ fixedRows w) : renderFixed x.2.1 = x.2.2 := by
  simp only [fixedRows, List.mem_cons, List.not_mem_nil, or_false] at hx
  rcases hx with rfl | rfl | rfl | rfl | rfl | rfl | rfl | rfl <;> rfl

theorem startRecord_congr {v w : Word} (h : field v 0 8 = field w 0 8) : startRecord v = startRecord w :=
  congrArg DecodeOut.neutral h

/-- Settles O5, by the record that each fixed row shows, which is made of the code alone. -/
theorem decFixedRowsGiveTheirMessage : Obligations.DecFixedRowsGiveTheirMessage := by
  intro w s
  refine ⟨fun x hx => ⟨_, exec_fixedRow hx s, rfl, rfl, renderFixed_of_mem hx⟩, fun v k h => ?_⟩
  rw [← List.getElem?_map, ← List.getElem?_map, fixedRows_map_exec, fixedRows_map_exec, startRecord_congr h]
  rfl

/-- Settles O8: the record shown is made of the code alone. -/
theorem decOtherReturnsTheCode : Obligations.DecOtherReturnsTheCode := by
  intro w s
  refine ⟨s.showRecord (decOther (startRecord w)), rfl, rfl, rfl, rfl, rfl, fun v h => ?_⟩
  rw [← startRecord_congr h]
  rfl

/-! ### The keypad rows (R204 to R206) -/

section KeypadRows
variable {p : Params} {w : Word} (out : DecodeOut)

theorem decKeypadButton_of_button (h : p.tablesWf = true) {b : Button} (hb : buttonField p w = p.btn b) :
    decKeypadButton p w out = { out with kind := .keypad, button := .symbol (.button b) } :=
  congrArg (fun x => { out with kind := .keypad, button := x }) ((decKeypadButton_eq_symbol out h b).mpr hb)

theorem decKeypadButton_of_unknown (h : ∀ b, buttonField p w ≠ p.btn b) : decKeypadButton p w out = decKeypadUnknown out :=
  congrArg (fun x => { out with kind := .keypad, button := x }) ((decKeypadButton_eq_unknown out).mpr h)

end KeypadRows

theorem exec_decKeypad (w : Word) (s : State) :
    exec (.decKeypad w) s = .next (s.showRecord (decKeypad s.params w (startRecord w))) := rfl

/-- Settles O7, by the record of each row and the branch of the keypad kind that leads to it. -/
theorem keypadRowsGiveTheirButton : Obligations.KeypadRowsGiveTheirButton := by
  intro w s ht
  refine ⟨⟨_, rfl, rfl, rfl, rfl, rfl, fun hi => ?_⟩, fun b hb => ⟨_, rfl, rfl, ?_⟩,
    ⟨_, rfl, rfl, rfl, rfl, rfl, fun hi hn => ?_⟩⟩
  · rw [exec_decKeypad, decKeypad_of_idle _ hi]
  · rw [exec_decKeypad, decKeypadButton_of_button _ ht hb]
    refine ⟨rfl, rfl, rfl, fun hi => ?_⟩
    rw [decKeypad_of_not_idle _ hi, decKeypadButton_of_button _ ht hb]
  · rw [exec_decKeypad, decKeypad_of_not_idle _ hi, decKeypadButton_of_unknown _ hn]

/-! ### The members of other kinds (R191, R195, R192) -/

/-- A record that has the code of a word and, of the members, at most those of its own kind. -/
structure DecodeOut.OnlyItsKind (w : Word) (out : DecodeOut) : Prop where
  code : out.code = field w 0 8
  led : out.kind ≠ .led → out.led = (DecodeOut.neutral 0).led
  dt : out.kind ≠ .datetime → out.dt = (DecodeOut.neutral 0).dt
  no_zone : (∀ g, out.kind ≠ .zone g) → out.zoneBitmap = 0#32
  zone : ∀ g, out.kind = .zone g → ∀ j, j < 32 → ¬ (8 * (g.num - 1) ≤ j ∧ j < 8 * g.num) →
    out.zoneBitmap.getLsbD j = false
  button : out.kind ≠ .keypad → out.button = .none

theorem decLed_onlyItsKind (p : Profile) (w : Word) : (decLed p w (startRecord w)).OnlyItsKind w :=
  ⟨rfl, fun h => absurd rfl h, fun _ => rfl, fun _ => rfl, nofun, fun _ => rfl⟩

theorem decDatetime_onlyItsKind (p : Profile) (w : Word) : (decDatetime p w (startRecord w)).OnlyItsKind w :=
  ⟨rfl, fun _ => rfl, fun h => absurd rfl h, fun _ => rfl, nofun, fun _ => rfl⟩

/-- R195: the zones of other groups are 0. -/
theorem decZone_onlyItsKind (g : Group) (p : Profile) (w : Word) : (decZone g p w (startRecord w)).OnlyItsKind w := by
  refine ⟨rfl, fun _ => rfl, fun _ => rfl, fun h => absurd rfl (h g), fun g' hg j _ hj => ?_, fun _ => rfl⟩
  cases hg
  refine zoneBits_outside (field_lt w p.zoneOff 8) fun hin => hj ?_
  have hpos : 1 ≤ g.num := by cases g <;> decide
  rw [Group.base, Nat.add_sub_cancel] at hin
  omega

theorem decFixed_onlyItsKind (k : FixedKind) (w : Word) : (decFixed k (startRecord w)).OnlyItsKind w :=
  ⟨rfl, fun _ => rfl, fun _ => rfl, fun _ => rfl, nofun, fun _ => rfl⟩

theorem decOther_onlyItsKind (w : Word) : (decOther (startRecord w)).OnlyItsKind w :=
  ⟨rfl, fun _ => rfl, fun _ => rfl, fun _ => rfl, nofun, fun _ => rfl⟩

/-- A keypad record writes the button alone. -/
theorem keypad_onlyItsKind (b : ButtonOut) (w : Word) :
    ({ startRecord w with kind := .keypad, button := b } : DecodeOut).OnlyItsKind w :=
  ⟨rfl, fun _ => rfl, fun _ => rfl, fun _ => rfl, nofun, fun h => absurd rfl h⟩

theorem decKeypad_onlyItsKind (p : Params) (w : Word) : (decKeypad p w (startRecord w)).OnlyItsKind w := by
  unfold decKeypad
  split
  · exact keypad_onlyItsKind _ w
  · exact keypad_onlyItsKind _ w

/-- Each busword row shows a record of its kind. -/
theorem exec_busRow {w : Word} {i : Instr} (hi : i ∈ busRows w) (s : State) :
    ∃ out : DecodeOut, exec i s = .next (s.showRecord out) ∧ out.OnlyItsKind w := by
  simp only [busRows, List.mem_cons, List.not_mem_nil, or_false] at hi
  rcases hi with rfl | rfl | rfl | rfl | rfl | rfl | rfl | rfl | rfl | rfl | rfl | rfl | rfl | rfl | rfl | rfl | rfl | rfl | rfl
  exacts [⟨_, rfl, decLed_onlyItsKind _ w⟩, ⟨_, rfl, decDatetime_onlyItsKind _ w⟩, ⟨_, rfl, decZone_onlyItsKind .g1 _ w⟩,
    ⟨_, rfl, decZone_onlyItsKind .g2 _ w⟩, ⟨_, rfl, decZone_onlyItsKind .g3 _ w⟩, ⟨_, rfl, decZone_onlyItsKind .g4 _ w⟩,
    ⟨_, rfl, decFixed_onlyItsKind .programMode w⟩, ⟨_, rfl, decFixed_onlyItsKind .keypadQuery w⟩,
    ⟨_, rfl, decFixed_onlyItsKind .undefined w⟩, ⟨_, rfl, decFixed_onlyItsKind .undefined w⟩,
    ⟨_, rfl, decFixed_onlyItsKind .undefined w⟩, ⟨_, rfl, decFixed_onlyItsKind .undefined w⟩,
    ⟨_, rfl, decFixed_onlyItsKind .undefined w⟩, ⟨_, rfl, decFixed_onlyItsKind .undefined w⟩,
    ⟨_, rfl, decKeypad_onlyItsKind _ w⟩, ⟨_, rfl, keypad_onlyItsKind _ w⟩, ⟨_, rfl, keypad_onlyItsKind _ w⟩,
    ⟨_, rfl, keypad_onlyItsKind _ w⟩, ⟨_, rfl, decOther_onlyItsKind w⟩]

/-- Settles O9, by the record that each row shows. -/
theorem buswordRowsLeaveOtherMembersNeutral : Obligations.BuswordRowsLeaveOtherMembersNeutral := by
  intro w s t i hi ht
  obtain ⟨out, he, hout⟩ := exec_busRow hi s
  rw [he] at ht
  cases ht
  exact ⟨hout.code, hout.led, hout.dt, hout.no_zone, hout.zone, hout.button, rfl⟩

/-! ### The texts (R208) -/

/-- The zones of a group by their places in the bitmap. -/
theorem groupZones_eq (g : Group) : groupZones g = (List.range 8).map fun i => 8 * (g.num - 1) + i + 1 :=
  List.map_congr_left fun i _ => by rw [Group.base]; omega

theorem DecodeOut.zone_succ (out : DecodeOut) (k : Nat) : out.zone (k + 1) = out.zoneBitmap.getLsbD k := rfl

/-- No zone of a group is active when none of its places in the bitmap is set. -/
theorem groupZones_any_iff (g : Group) (out : DecodeOut) :
    (groupZones g).any out.zone = true ↔ ¬ ∀ i, i < 8 → out.zoneBitmap.getLsbD (8 * (g.num - 1) + i) = false := by
  simp [groupZones_eq, DecodeOut.zone_succ]

theorem zoneList_eq (g : Group) (out : DecodeOut) :
    zoneList g out = ((List.range 8).map fun i =>
      if out.zoneBitmap.getLsbD (8 * (g.num - 1) + i) then decText (8 * (g.num - 1) + i + 1) ++ ", ".toList else []).flatten := by
  rw [zoneList, ← flatten_filter, groupZones_eq, List.map_map]
  rfl

/-- The zone message: the active zones of the group, or ready when there is none. -/
theorem renderZone_eq (g : Group) (out : DecodeOut) :
    renderZone g out = "Zone".toList ++ decText g.num ++ " ".toList ++
      if ∀ i : Nat, i < 8 → out.zoneBitmap.getLsbD (8 * (g.num - 1) + i) = false then "Ready ".toList else zoneList g out := by
  unfold renderZone
  congr 1
  split
  · next h => rw [if_neg ((groupZones_any_iff g out).mp h)]
  · next h => rw [if_pos (not_not.mp (mt (groupZones_any_iff g out).mpr h))]

/-- Settles O12, by the text of each kind. -/
theorem renderWritesTheDefaultTexts : Obligations.RenderWritesTheDefaultTexts := by
  intro s
  have hm : s.showRendered.ports.decOut.message = render s.ports.decOut := rfl
  refine ⟨s.showRendered, rfl, rfl, ?_⟩
  rw [hm]
  refine ⟨fun hk => ?_, fun hk => ?_, fun g hk => ?_, fun hk => ?_, fun hk => ?_, fun hk => ?_, fun hk hb => ?_,
    fun b hk hb => ?_, fun hk hb => ?_, fun hk => ?_⟩ <;> rw [render, hk]
  · exact ledText_parts ..
  · exact dateText_parts ..
  · exact (renderZone_eq g _).trans (by rw [zoneList_eq])
  · rfl
  · rfl
  · rfl
  · exact congrArg renderButton hb
  · exact congrArg renderButton hb
  · exact congrArg renderButton hb

/-! ### The encoder's input and the matcher (R232, R233) -/

theorem Symbol.ofInput_of_num {v : BitVec 4} {x : Symbol} (h : v.toNat = x.num.val) : Symbol.ofInput v = x := by
  unfold Symbol.ofInput
  rw [h]
  rcases x with b | _
  · cases b <;> rfl
  · rfl

theorem Symbol.ofInput_of_fifteen {v : BitVec 4} (h : v.toNat = 15) : Symbol.ofInput v = .idle := by
  unfold Symbol.ofInput
  rw [h]
  rfl

theorem exec_encode (v : BitVec 4) (s : State) : exec (.encode v) s = .next (s.showCommand (Symbol.ofInput v)) := rfl

/-- Settles O14, by the symbol each input selects. -/
theorem encodeInputSelectsTheSymbol : Obligations.EncodeInputSelectsTheSymbol := by
  intro v s
  constructor
  · intro x h
    rw [exec_encode, Symbol.ofInput_of_num h, exec_encRow]
  · intro h
    rw [exec_encode, Symbol.ofInput_of_fifteen h]
    rfl

/-- The row of a button presents the number that the table prints in it. -/
theorem exec_matchRow (b : Button) (s : State) : exec (matchRow b) s = .next (s.showMatch (matchNumber b).toNat) := by
  cases b <;> rfl

/-- A number that a button's row prints is that button's in the default table. -/
theorem matchNumber_toNat {p : Params} (h : p.btnTab = defaultBtnTab) (b : Button) : (matchNumber b).toNat = p.btn b := by
  rw [Params.btn, h]
  cases b <;> rfl

/-- Settles O15, by what the matcher answers on a value. -/
theorem matchIsExactEquality : Obligations.MatchIsExactEquality := by
  intro s ht
  refine ⟨fun v => ⟨s.showMatch v.toNat, rfl, rfl, matchButton_eq_some ht v.toNat, matchButton_eq_none s.params v.toNat⟩,
    fun b => ⟨exec_matchRow b s, ⟨_, exec_matchRow b s, rfl, matchButton_eq_some ht _, matchButton_eq_none s.params _⟩,
      fun hd => ?_⟩⟩
  rw [exec_matchRow, ← (matchButton_eq_some ht _ b).mpr (matchNumber_toNat hd b)]
  rfl

end Sys2Proof.Machine
end

section
/-! Proofs about the queues (spec/41_queues.md R171, R176, R178): what overwriting pushes leave, and that the ring of slots answers as
the sequence does. -/

namespace Sys2Proof.Machine

/-! ### The last elements of a list -/

section LastN
variable {α : Type} {n : Nat}

theorem lastN_of_length_le {l : List α} (h : l.length ≤ n) : lastN n l = l := by
  rw [lastN, Nat.sub_eq_zero_of_le h, List.drop_zero]

theorem length_lastN (n : Nat) (l : List α) : (lastN n l).length = min l.length n := by
  rw [lastN, List.length_drop]
  omega

/-- The last elements of a list can be taken before more are appended. -/
theorem lastN_lastN_append (n : Nat) (l m : List α) : lastN n (lastN n l ++ m) = lastN n (l ++ m) := by
  rcases Nat.le_total l.length n with h | h
  · rw [lastN_of_length_le h]
  · unfold lastN
    rw [← List.drop_append_of_le_length (by omega), List.drop_drop]
    congr 1
    simp only [List.length_drop, List.length_append]
    omega

end LastN

/-! ### The overwriting push (R171) -/

section OverwritingPush
variable {cap : Nat} {q : Queue} (w : Word)

/-- R171: the new word is stored and the last ones that fit are kept. -/
theorem Queue.pushOverwrite_lastN (hc : 1 ≤ cap) (h : q.items.length ≤ cap) :
    (q.pushOverwrite cap w).1.items = lastN cap (q.items ++ [w]) := by
  rw [Queue.pushOverwrite_items]
  by_cases hf : q.items.length = cap
  · rw [if_pos hf, lastN, List.length_append, List.length_singleton, hf, Nat.add_sub_cancel_left,
      List.drop_append_of_le_length (by omega), List.drop_one]
  · rw [if_neg hf, lastN_of_length_le]
    rw [List.length_append, List.length_singleton]
    omega

theorem Queue.pushOverwrite_overrun_iff : (q.pushOverwrite cap w).2 = true ↔ q.items.length = cap := by
  rw [Queue.pushOverwrite_overrun, decide_eq_true_iff]

end OverwritingPush

/-- Settles O30, by the elements that the push leaves. -/
theorem overwritingPushDropsTheOldest : Obligations.OverwritingPushDropsTheOldest := by
  intro w s hc h
  exact ⟨s.portPushOverwrite w, rfl, rfl, Queue.pushOverwrite_lastN w hc h, Queue.pushOverwrite_overrun_iff w⟩

/-- Overwriting pushes one after the other keep the last words that fit. -/
theorem execAll_pushes (ws : List Word) (s : State) (hc : 1 ≤ s.params.capB2a) (h : s.b2a.items.length ≤ s.params.capB2a) :
    ∃ t, execAll (ws.map (.qpushOverwrite .sampler)) s = .next t ∧ t.params = s.params ∧
      t.b2a.items = lastN s.params.capB2a (s.b2a.items ++ ws) := by
  induction ws generalizing s with
  | nil => exact ⟨s, rfl, rfl, by rw [List.append_nil, lastN_of_length_le h]⟩
  | cons w ws ih =>
    have hi : (s.portPushOverwrite w).b2a.items = lastN s.params.capB2a (s.b2a.items ++ [w]) :=
      Queue.pushOverwrite_lastN w hc h
    obtain ⟨t, he, hp, ht⟩ := ih (s.portPushOverwrite w) hc (by
      rw [hi, length_lastN, State.portPushOverwrite_params]
      omega)
    refine ⟨t, he, hp, ?_⟩
    rw [ht, hi, State.portPushOverwrite_params, lastN_lastN_append, List.append_assoc]
    rfl

/-- Settles O35, by the pushes before the latest one and the latest one. -/
theorem overwriteLaw : Obligations.OverwriteLaw := by
  intro ws w s hc h
  obtain ⟨t, he, hp, ht⟩ := execAll_pushes ws s hc (by rw [h]; exact Nat.zero_le _)
  rw [h, List.nil_append] at ht
  have hl : t.b2a.items.length = min ws.length s.params.capB2a := by rw [ht, length_lastN]
  have hi : (t.portPushOverwrite w).b2a.items = lastN s.params.capB2a (ws ++ [w]) := by
    rw [← lastN_lastN_append, ← ht, ← hp]
    exact Queue.pushOverwrite_lastN w (by rw [hp]; exact hc) (by rw [hp]; omega)
  have ho : (t.portPushOverwrite w).ports.b2aOverrun = true ↔ t.b2a.items.length = t.params.capB2a :=
    Queue.pushOverwrite_overrun_iff w
  refine ⟨t.portPushOverwrite w, ?_, hi, ?_⟩
  · rw [List.map_append, execAll_append he]
    rfl
  · rw [ho, hp, hl]
    omega

/-! ### The ring (R36, R178) -/

/-- The storage of a ring in its canonical form: `cap` slots, and indices that frame at most `cap` elements. -/
structure Ring.Ok (cap : Nat) (r : Ring) : Prop where
  slots : r.slot.length = cap
  rd_lt : r.rd < cap
  n_le : r.n ≤ cap
  wr_eq : r.wr = (r.rd + r.n) % cap

theorem Ring.memRead_memWrite {i j : Nat} (w : Word) (r : Ring) (h : j < r.slot.length) :
    (r.memWrite i w).memRead j = if j = i then w else r.memRead j := by
  simp only [Ring.memRead, Ring.memWrite, List.getD_eq_getElem?_getD, List.getElem?_set, eq_comm (a := i)]
  split
  · next e => simp [← e, h]
  · rfl

/-- Two places less than a whole round apart are different slots. -/
theorem add_mod_ne_add_mod {a i j cap : Nat} (h : i < j) (hc : j < i + cap) : (a + i) % cap ≠ (a + j) % cap := by
  intro e
  have hij : i ≡ j [MOD cap] := Nat.ModEq.add_left_cancel' a e
  have hle := Nat.le_of_dvd (by omega) ((Nat.modEq_iff_dvd' (Nat.le_of_lt h)).mp hij)
  omega

theorem Ring.items_length (cap : Nat) (r : Ring) : (r.items cap).length = r.n := by simp [Ring.items]

/-- The queue a ring stands for is full when the ring is. -/
theorem Ring.full_toQueue (cap : Nat) (r : Ring) : (r.toQueue cap).full cap = true ↔ r.n = cap := by
  rw [Queue.full_iff, Ring.toQueue, Ring.items_length]

/-- A write at the write index of a ring that gives up its `d` oldest elements: what both pushes do (R178). -/
def Ring.write (cap d : Nat) (w : Word) (r : Ring) : Ring :=
  { r.memWrite r.wr w with wr := (r.wr + 1) % cap, rd := (r.rd + d) % cap, n := r.n - d + 1 }

section RingStorage
variable {cap : Nat} {r : Ring} (h : r.Ok cap) (w : Word)
include h

/-- The elements that are not given up are as before, the new word is last. -/
theorem Ring.items_write {d : Nat} (hd : d ≤ r.n) (hcap : r.n + 1 ≤ cap + d) :
    (r.write cap d w).items cap
      = (r.items cap).drop d ++ [w] := by
  have hread : ∀ k, d + k ≤ r.n → Ring.memRead (((r.rd + d) % cap + k) % cap) (r.memWrite r.wr w)
      = if d + k = r.n then w else r.memRead ((r.rd + (d + k)) % cap) := by
    intro k hk
    have hlt : (r.rd + (d + k)) % cap < r.slot.length := by rw [h.slots]; exact Nat.mod_lt _ (by have := h.rd_lt; omega)
    rw [Nat.mod_add_mod, Nat.add_assoc, Ring.memRead_memWrite w r hlt, h.wr_eq]
    by_cases e : d + k = r.n
    · rw [if_pos e, if_pos (by rw [e])]
    · rw [if_neg e, if_neg (add_mod_ne_add_mod (by omega) (by omega))]
  rw [Ring.items, Ring.write, List.range_succ, List.map_append]
  congr 1
  · refine List.ext_getElem (by simp [Ring.items_length]) fun k hk _ => ?_
    simp only [List.length_map, List.length_range] at hk
    simp only [List.getElem_map, List.getElem_range, List.getElem_drop, Ring.items]
    exact (hread k (by omega)).trans (if_neg (by omega))
  · exact congrArg (fun x => [x]) ((hread (r.n - d) (by omega)).trans (if_pos (by omega)))

/-- The indices after a write frame the elements again. -/
theorem Ring.ok_write {d : Nat} (hd : d ≤ r.n) (hcap : r.n + 1 ≤ cap + d) :
    (r.write cap d w).Ok cap where
  slots := by rw [← h.slots]; exact List.length_set
  rd_lt := Nat.mod_lt _ (by have := h.rd_lt; omega)
  n_le := by show r.n - d + 1 ≤ cap; omega
  wr_eq := by
    show (r.wr + 1) % cap = ((r.rd + d) % cap + (r.n - d + 1)) % cap
    rw [h.wr_eq, Nat.mod_add_mod, Nat.mod_add_mod]
    congr 1
    omega

theorem Ring.ok_pop (hn : r.n ≠ 0) : Ring.Ok cap { r with rd := (r.rd + 1) % cap, n := r.n - 1 } where
  slots := h.slots
  rd_lt := Nat.mod_lt _ (by have := h.rd_lt; omega)
  n_le := by have := h.n_le; show r.n - 1 ≤ cap; omega
  wr_eq := by
    show r.wr = ((r.rd + 1) % cap + (r.n - 1)) % cap
    rw [h.wr_eq, Nat.mod_add_mod]
    congr 1
    omega

/-- The oldest element of a ring is the one at its read index. -/
theorem Ring.items_of_pos (hn : r.n ≠ 0) :
    r.items cap = r.memRead r.rd :: Ring.items cap { r with rd := (r.rd + 1) % cap, n := r.n - 1 } := by
  obtain ⟨m, hm⟩ := Nat.exists_eq_succ_of_ne_zero hn
  unfold Ring.items
  rw [hm, List.range_succ_eq_map, List.map_cons, List.map_map, Nat.add_zero, Nat.mod_eq_of_lt h.rd_lt]
  refine congrArg (_ :: ·) (List.map_congr_left fun k _ => ?_)
  show r.memRead ((r.rd + (k + 1)) % cap) = r.memRead (((r.rd + 1) % cap + k) % cap)
  rw [Nat.mod_add_mod, Nat.add_assoc, Nat.add_comm k 1]

theorem Ring.pushOverwrite_of_full (hn : r.n = cap) : r.pushOverwrite cap w = (r.write cap 1 w, true) := by
  have e : cap - 1 + 1 = cap := Nat.sub_add_cancel (Nat.one_le_of_lt h.rd_lt)
  simp [Ring.pushOverwrite, Ring.write, hn, e]

theorem Ring.pushOverwrite_of_room (hn : r.n ≠ cap) : r.pushOverwrite cap w = (r.write cap 0 w, false) := by
  simp [Ring.pushOverwrite, Ring.write, hn, Nat.mod_eq_of_lt h.rd_lt]

theorem Ring.pushReject_of_room (hn : r.n ≠ cap) : r.pushReject cap w = (r.write cap 0 w, true) := by
  simp [Ring.pushReject, Ring.write, Ring.memWrite, hn, Nat.mod_eq_of_lt h.rd_lt]

theorem Ring.write_toQueue {d : Nat} (hd : d ≤ r.n) (hcap : r.n + 1 ≤ cap + d) :
    (r.write cap d w).toQueue cap
      = { items := (r.items cap).drop d ++ [w], wr := (r.wr + 1) % cap, rd := (r.rd + d) % cap } := by
  rw [Ring.toQueue, Ring.items_write h w hd hcap]
  rfl

/-- One call on the ring answers as on the queue it stands for, and the ring stands for the queue after the call. -/
theorem Ring.call_toQueue (c : QueueCall) :
    (r.call cap c).2 = ((r.toQueue cap).call cap c).2 ∧ (r.call cap c).1.toQueue cap = ((r.toQueue cap).call cap c).1 ∧
      (r.call cap c).1.Ok cap := by
  have hle := h.n_le
  have hpos := h.rd_lt
  have hrd : (r.rd + 0) % cap = r.rd := Nat.mod_eq_of_lt hpos
  cases c with
  | pushOverwrite w =>
    simp only [Ring.call, Queue.call, Queue.pushOverwrite]
    by_cases hn : r.n = cap
    · rw [Ring.pushOverwrite_of_full h w hn, Ring.write_toQueue h w (by omega) (by omega), if_pos ((Ring.full_toQueue cap r).mpr hn),
        List.drop_one]
      exact ⟨rfl, rfl, Ring.ok_write h w (by omega) (by omega)⟩
    · rw [Ring.pushOverwrite_of_room h w hn, Ring.write_toQueue h w (by omega) (by omega), if_neg (mt (Ring.full_toQueue cap r).mp hn),
        List.drop_zero, hrd]
      exact ⟨rfl, rfl, Ring.ok_write h w (by omega) (by omega)⟩
  | pushReject w =>
    simp only [Ring.call, Queue.call, Queue.pushReject]
    by_cases hn : r.n = cap
    · rw [Ring.pushReject, if_pos (beq_iff_eq.mpr hn), if_pos ((Ring.full_toQueue cap r).mpr hn)]
      exact ⟨rfl, rfl, h⟩
    · rw [Ring.pushReject_of_room h w hn, Ring.write_toQueue h w (by omega) (by omega), if_neg (mt (Ring.full_toQueue cap r).mp hn),
        List.drop_zero, hrd]
      exact ⟨rfl, rfl, Ring.ok_write h w (by omega) (by omega)⟩
  | pop =>
    simp only [Ring.call, Queue.call, Queue.pop, Ring.pop, Ring.toQueue]
    by_cases hn : r.n = 0
    · have hi : r.items cap = [] := List.length_eq_zero_iff.mp ((Ring.items_length cap r).trans hn)
      rw [if_pos hn, hi]
      exact ⟨rfl, rfl, h⟩
    · rw [if_neg hn, Ring.items_of_pos h hn]
      exact ⟨rfl, rfl, Ring.ok_pop h hn⟩
  | count => exact ⟨congrArg QueueAnswer.count (Ring.items_length cap r).symm, rfl, h⟩

end RingStorage

/-- Calls one after the other: alike at each. -/
theorem Ring.calls_toQueue (cap : Nat) (cs : List QueueCall) {r : Ring} (h : r.Ok cap) :
    (r.calls cap cs).2 = ((r.toQueue cap).calls cap cs).2 ∧
      (r.calls cap cs).1.toQueue cap = ((r.toQueue cap).calls cap cs).1 := by
  induction cs generalizing r with
  | nil => exact ⟨rfl, rfl⟩
  | cons c cs ih =>
    obtain ⟨ha, hq, hok⟩ := Ring.call_toQueue h c
    obtain ⟨has, hqs⟩ := ih hok
    rw [hq] at has hqs
    exact ⟨congrArg₂ List.cons ha has, hqs⟩

theorem Ring.ok_afterReset {cap : Nat} {slots : List Word} (hc : 1 ≤ cap) (h : slots.length = cap) :
    (Ring.afterReset slots).Ok cap := ⟨h, hc, Nat.zero_le _, (Nat.mod_eq_of_lt hc).symm⟩

/-- Settles O36: a ring after reset is canonical and stands for the empty queue, and each call keeps the two together. -/
theorem ringAnswersAsTheSequence : Obligations.RingAnswersAsTheSequence := by
  intro cap slots cs hc h
  exact Ring.calls_toQueue cap cs (Ring.ok_afterReset hc h)

end Sys2Proof.Machine
end

section
/-! Proofs about the sampler (spec/40_sampler.md R131 to R145): its steps one by one, what a tick does, the whole handlers of the two
edges, and the bit cells of a frame. -/

namespace Sys2Proof.Machine

/-! ### The poll (R131) -/

section Poll
variable {s : State} {c : Level}

theorem State.poll_of_same (h : c = s.prevClk) : s.poll c = s := by
  rcases s.poll_cases c with ⟨hp, hc, -⟩ | ⟨hp, hc, -⟩ | ⟨-, e⟩
  · exact absurd (hc.symm.trans (h.trans hp)) nofun
  · exact absurd (hc.symm.trans (h.trans hp)) nofun
  · exact e

theorem State.poll_of_fall (hc : c = .low) (hp : s.prevClk = .high) : s.poll c = s.takeFall := by
  simp [State.poll, hp, hc]

theorem State.poll_of_rise (hc : c = .high) (hp : s.prevClk = .low) : s.poll c = s.takeRise := by
  simp [State.poll, hp, hc]

end Poll

theorem exec_rise (s : State) : exec .rise s = .next s.takeRise := rfl

/-- Settles O17, by the three cases of the poll. -/
theorem pollTakesTheEdges : Obligations.PollTakesTheEdges := by
  intro c s
  refine ⟨fun h => ?_, fun hc hp => ?_, fun hc hp => ?_, fun _ => rfl, fun _ => rfl, fun _ => rfl⟩
  · exact congrArg Host.Outcome.next (State.poll_of_same h)
  · exact congrArg Host.Outcome.next (State.poll_of_fall hc hp)
  · exact ⟨s.takeRise, congrArg Host.Outcome.next (State.poll_of_rise hc hp), rfl, s.takeRise_prevClk, s.takeRise_phase⟩

/-! ### The steps of a rising edge (R132, R134 to R136, R141) -/

/-- Settles O19, by the boundary test and the mark. -/
theorem boundaryIsStrictlyPastTheWindow : Obligations.BoundaryIsStrictlyPastTheWindow := by
  intro s
  exact ⟨_, rfl, rfl, s.boundary_iff, fun h => if_pos h, fun h => if_neg (by simp [h])⟩

/-- Settles O22: every position of the buffers is filled. -/
theorem resetFrameClearsTheFrame : Obligations.ResetFrameClearsTheFrame := by
  intro s
  exact ⟨s.resetFrame, rfl, rfl, fun p hp => ⟨fillWord_bit _ hp, fillWord_bit _ hp⟩⟩

/-- Settles O24, by the level each leaves on the latch. -/
theorem driveAndReleaseWriteTheLatch : Obligations.DriveAndReleaseWriteTheLatch := by
  intro s
  refine ⟨?_, rfl⟩
  rw [← s.drive_level]
  rfl

/-- Settles O21, by the two pushes and the pop. -/
theorem validFramePushesTwiceAndLoadsOnce : Obligations.ValidFramePushesTwiceAndLoadsOnce := by
  intro s hc hle
  let q := (s.b2a.pushOverwrite s.params.capB2a s.pbuf).1
  have hq : q.items = lastN s.params.capB2a (s.b2a.items ++ [s.pbuf]) := Queue.pushOverwrite_lastN s.pbuf hc hle
  have hlen : q.items.length = min (s.b2a.items.length + 1) s.params.capB2a := by
    rw [hq, length_lastN, List.length_append, List.length_singleton]
  refine ⟨s.validFrame, rfl, rfl, ?_, Queue.pop_items .., ?_, ?_⟩
  · have h2 : s.validFrame.b2a.items = lastN s.params.capB2a (q.items ++ [s.kbuf]) :=
      Queue.pushOverwrite_lastN s.kbuf hc (hlen.trans_le (Nat.min_le_right _ _))
    rw [h2, hq, lastN_lastN_append, List.append_assoc]
    rfl
  · show (s.a2b.pop s.params.capA2b).2.getD _ = _
    rw [Queue.pop_answer]
    rfl
  · show (s.evlog ++ Event.onlyIf (s.b2a.pushOverwrite s.params.capB2a s.pbuf).2 _)
      ++ Event.onlyIf (q.pushOverwrite s.params.capB2a s.kbuf).2 _ = _
    rw [Queue.pushOverwrite_overrun, Queue.pushOverwrite_overrun, hlen]
    simp only [Event.onlyIf, decide_eq_true_eq, show min (s.b2a.items.length + 1) s.params.capB2a = s.params.capB2a ↔
      s.b2a.items.length + 1 ≥ s.params.capB2a by omega]

theorem State.takeRise_of_no_boundary {s : State} (h : s.now ≤ s.tMark + 250) :
    s.takeRise = { ({ s with prevClk := .high } : State).mark.drive with phase := .kwait s.params.nK } := by
  have hb : ({ s with prevClk := .high } : State).boundary = false := s.boundary_false h
  rw [State.takeRise, State.rise, hb]
  rfl

/-- Settles O18, by whether a frame ends and how. -/
theorem riseTakesItsStepsInOrder : Obligations.RiseTakesItsStepsInOrder := by
  intro s
  by_cases hb : s.tMark + 250 < s.now
  · rw [exec_rise, State.takeRise_of_boundary hb, if_pos hb]
    by_cases hs : s.bitcnt < 20
    · rw [State.finalise_of_short (s := { s with prevClk := .high }) hs, if_pos hs]
      exact ⟨_, rfl, rfl⟩
    · rw [State.finalise_of_full (s := { s with prevClk := .high }) (Nat.le_of_not_lt hs), if_neg hs]
      exact ⟨_, rfl, rfl⟩
  · rw [exec_rise, State.takeRise_of_no_boundary (Nat.le_of_not_lt hb), if_neg hb]
    exact ⟨_, rfl, rfl⟩

/-! ### The samples (R137, R138) -/

theorem State.psample_eq (s : State) (l : Level) (h : s.bitcnt ≤ 64) :
    s.psample l = { s with pbuf := (s.psample l).pbuf, bitcnt := min (s.bitcnt + 1) 64 } := by
  rw [← s.psample_bitcnt_le l h]
  rfl

/-- Settles O25, by the samples position by position. -/
theorem samplesStoreAtTheBitCount : Obligations.SamplesStoreAtTheBitCount := by
  intro l s h
  exact ⟨⟨s.ksample l, rfl, rfl, fun _ hp => s.ksample_bit l hp⟩,
    ⟨s.psample l, rfl, s.psample_eq l h, fun _ hp => s.psample_bit l hp⟩⟩

/-! ### A tick (R140) -/

theorem exec_tick (c d : Level) (s : State) : exec (.tick c d) s = .next (s.tick c d) := rfl

@[simp] theorem State.tick_now (s : State) (c d : Level) : (s.tick c d).now = s.now + 1 := by
  rcases s.tick_cases c d with ⟨p, e, -⟩ | ⟨-, -, e⟩ | ⟨-, -, e⟩ | ⟨-, e⟩ | ⟨-, e⟩ | ⟨-, e⟩ <;> simp [e]

/-- Settles O26, by the tick in each phase. -/
theorem tickDoesWhatThePhaseSays : Obligations.TickDoesWhatThePhaseSays := by
  intro c d s
  refine ⟨⟨_, rfl, s.tick_now c d⟩, fun h => ?_, fun n h => ?_, fun n h => ?_, fun n h => ?_, fun h => ⟨_, rfl, ?_⟩,
    fun h => ⟨_, rfl, ?_⟩, fun h => ⟨_, rfl, ?_⟩⟩ <;> rw [exec_tick]
  · rw [s.tick_poll c d h]
    rfl
  · rw [s.tick_kwait c d _ h, if_pos (by omega)]
    rfl
  · rw [s.tick_hwait c d _ h, if_pos (by omega)]
    rfl
  · rw [s.tick_pwait c d _ h, if_pos (by omega)]
    rfl
  · rw [s.tick_kwait c d _ h, if_neg (by decide)]
  · rw [s.tick_hwait c d _ h, if_neg (by decide)]
  · rw [s.tick_pwait c d _ h, if_neg (by decide)]

/-! ### Waits to their end -/

section WaitsToTheEnd
variable (pins : List (Level × Level)) (c d : Level) (s : State)

theorem tickOps_append (pins₁ pins₂ : List (Level × Level)) : tickOps (pins₁ ++ pins₂) = tickOps pins₁ ++ tickOps pins₂ :=
  List.map_append

theorem execAll_kwait_end (h : s.phase = .kwait (pins.length + 1)) :
    execAll (tickOps (pins ++ [(c, d)])) s
      = .next { s.ksample d with now := s.now + (pins.length + 1), phase := .hwait 22 } := by
  rw [tickOps_append, execAll_append (execAll_kwait pins s 1 h (by decide))]
  exact congrArg Host.Outcome.next (State.tick_kwait _ c d 1 rfl)

theorem execAll_hwait_end (h : s.phase = .hwait (pins.length + 1)) :
    execAll (tickOps (pins ++ [(c, d)])) s
      = .next { s.release with now := s.now + (pins.length + 1), phase := .poll } := by
  rw [tickOps_append, execAll_append (execAll_hwait pins s 1 h (by decide))]
  exact congrArg Host.Outcome.next (State.tick_hwait _ c d 1 rfl)

theorem execAll_pwait_end (h : s.phase = .pwait (pins.length + 1)) :
    execAll (tickOps (pins ++ [(c, d)])) s
      = .next { s.psample d with now := s.now + (pins.length + 1), phase := .poll } := by
  rw [tickOps_append, execAll_append (execAll_pwait pins s 1 h (by decide))]
  exact congrArg Host.Outcome.next (State.tick_pwait _ c d 1 rfl)

end WaitsToTheEnd

/-! ### The whole handlers (R142, R143) -/

/-- Settles O27: the edge, the wait for the read-back to its end, and the hold to its end. -/
theorem risingEdgeRunsItsWholeHandler : Obligations.RisingEdgeRunsItsWholeHandler := by
  intro c lk pins₁ pins₂ d c' s hph hp hc hK h1 h2
  obtain rfl | ⟨pins, ⟨c₂, d₂⟩, rfl⟩ := List.eq_nil_or_concat' pins₂
  · cases h2
  have hlen : pins.length = 21 := by simpa using h2
  let s₁ : State := ({ s with now := s.now + 1 } : State).takeRise
  have hfirst : s.tick c d = s₁ := by
    rw [s.tick_poll c d hph]
    exact State.poll_of_rise hc hp
  have hnow : s₁.now = s.now + 1 := State.takeRise_now _
  have hread := execAll_kwait_end pins₁ c' lk s₁ (congrArg Phase.kwait (show s.params.nK = pins₁.length + 1 by omega))
  have hhold := execAll_hwait_end pins c₂ d₂
    { s₁.ksample lk with now := s₁.now + (pins₁.length + 1), phase := .hwait 22 } (by rw [hlen])
  refine ⟨(s₁.ksample lk).release, rfl, ?_⟩
  have hpins : (c, d) :: pins₁ ++ (c', lk) :: (pins ++ [(c₂, d₂)])
      = (c, d) :: ((pins₁ ++ [(c', lk)]) ++ (pins ++ [(c₂, d₂)])) := by simp
  rw [hpins]
  show execAll (tickOps ((pins₁ ++ [(c', lk)]) ++ (pins ++ [(c₂, d₂)]))) (s.tick c d) = _
  rw [tickOps_append, hfirst, execAll_append hread, hhold, hnow, h1, hlen]
  have e : s.now + 1 + (s.params.nK - 1 + 1) + (21 + 1) = s.now + (s.params.nK + 23) := by omega
  rw [e]
  rfl

/-- Settles O28: the edge, and the wait for the panel sample to its end. -/
theorem fallingEdgeRunsItsWholeHandler : Obligations.FallingEdgeRunsItsWholeHandler := by
  intro c lp pins d c' s hph hp hc hl
  refine ⟨s.psample lp, rfl, ?_⟩
  have hfirst : s.tick c d = ({ s with now := s.now + 1 } : State).takeFall := by
    rw [s.tick_poll c d hph]
    exact State.poll_of_fall hc hp
  have hrest := execAll_pwait_end pins c' lp ({ s with now := s.now + 1 } : State).takeFall (by rw [hl]; rfl)
  show execAll (tickOps (pins ++ [(c', lp)])) (s.tick c d) = _
  rw [hfirst, hrest, hl]
  rfl

/-! ### Bit cells (R145, R65) -/

/-- One bit cell inside the window: the edge, the read-back, the release, the other edge, the panel sample. -/
def State.cell (l : Level × Level) (s : State) : State := (s.takeRise.ksample l.1).release.takeFall.psample l.2

theorem execAll_cellOps (l : Level × Level) (s : State) : execAll (cellOps l) s = .next (s.cell l) := rfl

/-- The bit a cell leaves at a position: the sample of that cell, and `BUF_FILL` where no cell has been. -/
def cellBit (sample : Level × Level → Level) (fill : Bool) (ls : List (Level × Level)) (p : Nat) : Bool :=
  (ls[p]?.map fun l => decide (sample l = .low)).getD fill

theorem cellBit_append_singleton (sample : Level × Level → Level) (fill : Bool) (ls : List (Level × Level)) (l : Level × Level)
    (p : Nat) : cellBit sample fill (ls ++ [l]) p
      = if p = ls.length then decide (sample l = .low) else cellBit sample fill ls p := by
  unfold cellBit
  rcases Nat.lt_trichotomy p ls.length with h | rfl | h
  · rw [List.getElem?_append_left h, if_neg (by omega)]
  · simp
  · rw [if_neg (by omega), List.getElem?_eq_none (by simp; omega), List.getElem?_eq_none (by omega)]

/-- What `n` cells have made of a state with an empty frame: the frame, with the queues, the command, the log and the time as
before, and still inside the window. -/
structure State.HoldsCells (s : State) (ls : List (Level × Level)) (t : State) : Prop where
  bitcnt : t.bitcnt = min ls.length 64
  kbuf : ∀ p, p < 64 → t.kbuf.bit p = cellBit Prod.fst s.params.bufFill ls p
  pbuf : ∀ p, p < 64 → t.pbuf.bit p = cellBit Prod.snd s.params.bufFill ls p
  b2a : t.b2a = s.b2a
  a2b : t.a2b = s.a2b
  curCmd : t.curCmd = s.curCmd
  evlog : t.evlog = s.evlog
  now : t.now = s.now
  window : t.now ≤ t.tMark + 250

/-- One more cell fills the next position, until the frame is full. -/
theorem State.HoldsCells.cell {s t : State} {ls : List (Level × Level)} (h : s.HoldsCells ls t) (l : Level × Level) :
    s.HoldsCells (ls ++ [l]) (t.cell l) := by
  have hrise := State.takeRise_of_no_boundary h.window
  have hcnt : t.takeRise.bitcnt = min ls.length 64 := by rw [hrise]; exact h.bitcnt
  have hkb : t.takeRise.kbuf = t.kbuf := by rw [hrise]; rfl
  have hpb : t.takeRise.pbuf = t.pbuf := by rw [hrise]; rfl
  have hpos : ∀ p, p < 64 → (p = min ls.length 64 ↔ p = ls.length) := fun p hp => by omega
  refine ⟨?_, fun p hp => ?_, fun p hp => ?_, ?_, ?_, ?_, ?_, ?_, ?_⟩
  · refine ((t.takeRise.ksample l.1).release.takeFall.psample_bitcnt_le l.2 (hcnt.trans_le (Nat.min_le_right _ _))).trans ?_
    show min (t.takeRise.bitcnt + 1) 64 = _
    rw [hcnt, List.length_append, List.length_singleton]
    omega
  · refine (t.takeRise.ksample_bit l.1 hp).trans ?_
    simp only [cellBit_append_singleton, hcnt, hkb, h.kbuf p hp, hpos p hp]
  · refine ((t.takeRise.ksample l.1).release.takeFall.psample_bit l.2 hp).trans ?_
    show (if p = t.takeRise.bitcnt then _ else t.takeRise.pbuf.bit p) = _
    simp only [cellBit_append_singleton, hcnt, hpb, h.pbuf p hp, hpos p hp]
  · rw [State.cell, hrise]; exact h.b2a
  · rw [State.cell, hrise]; exact h.a2b
  · rw [State.cell, hrise]; exact h.curCmd
  · rw [State.cell, hrise]; exact h.evlog
  · rw [State.cell, hrise]; exact h.now
  · have hw := h.window
    rw [State.cell, hrise]
    show t.now ≤ (if t.params.markEveryEdge then t.now else t.tMark) + 250
    split <;> omega

/-- Cells one after the other from an empty frame. -/
theorem execAll_cellsOps {s : State} (h : s.HoldsCells [] s) (ls : List (Level × Level)) :
    ∃ t, execAll (cellsOps ls) s = .next t ∧ s.HoldsCells ls t := by
  induction ls using List.reverseRecOn with
  | nil => exact ⟨s, rfl, h⟩
  | append_singleton ls l ih =>
    obtain ⟨t, he, ht⟩ := ih
    refine ⟨t.cell l, ?_, ht.cell l⟩
    rw [cellsOps, List.flatMap_append, List.flatMap_singleton]
    exact (execAll_append he).trans (execAll_cellOps l t)

/-- The next rising edge drives the bit of the command at the number of cells, idle when the frame is full. -/
theorem State.HoldsCells.takeRise_dataDrv {s t : State} {ls : List (Level × Level)} (h : s.HoldsCells ls t) :
    t.takeRise.dataDrv = if ls.length < 64 ∧ s.curCmd.bit ls.length = false then .high else .low := by
  rw [State.takeRise_of_no_boundary h.window]
  refine (State.drive_level _).trans ?_
  show (if t.bitcnt < 64 ∧ t.curCmd.bit t.bitcnt = false then _ else _) = _
  rw [h.bitcnt, h.curCmd]
  by_cases hl : ls.length < 64
  · rw [Nat.min_eq_left (Nat.le_of_lt hl)]
  · rw [if_neg (by omega), if_neg (by omega)]

/-- Settles O29, by the cells one after the other. -/
theorem bitCellsAssembleTheFrame : Obligations.BitCellsAssembleTheFrame := by
  intro ls s hw _ hb hf
  have h0 : s.HoldsCells [] s :=
    ⟨hb, fun p hp => (hf p hp).2, fun p hp => (hf p hp).1, rfl, rfl, rfl, rfl, rfl, hw⟩
  obtain ⟨t, he, h⟩ := execAll_cellsOps h0 ls
  exact ⟨t, he, h.bitcnt, h.kbuf, h.pbuf, h.b2a, h.a2b, h.curCmd, h.evlog, h.now, t.takeRise, rfl, h.takeRise_dataDrv⟩

end Sys2Proof.Machine
end

section
/-! Proofs about the step, the agents and the machine as a whole (spec/60_exceptions.md R280, R286, R297, spec/10_state.md R40 to R43,
spec/20_memory.md R61, spec/70_reset_and_hazards.md R320): what a step runs, what a reset leaves, what grows the event log, and which
operation writes what. -/

namespace Sys2Proof.Machine

/-! ### The pins (R61) -/

/-- Settles O37: each pin has a direction of its own. -/
theorem pinconfigSetsOneDirection : Obligations.PinconfigSetsOneDirection := fun _ _ => ⟨rfl, rfl⟩

/-! ### What a step runs (R297, R250) -/

/-- Settles O45: the step of an operation is `exec` after the frame of a step. -/
theorem stepRunsTheDecodedOperation : Obligations.StepRunsTheDecodedOperation := by
  intro s bytes rest i ha hd
  rw [step_op ha hd]
  rfl

/-- Settles O46: the idle step is a tick with the free levels. -/
theorem idleStepIsATick : Obligations.IdleStepIsATick := by
  intro s ha
  have hb : s.begin [] = { s with strobes := [] } := by rw [State.begin, ← ha]
  refine ⟨Config.freeClk s.pinSeq, Config.freeData s.pinSeq, _, rfl, ?_⟩
  rw [step_nil ha, hb]
  rfl

theorem Queue.pop_of_cons (cap : Nat) {q : Queue} {w : Word} {ws : List Word} (h : q.items = w :: ws) :
    q.pop cap = ({ items := ws, wr := q.wr, rd := (q.rd + 1) % cap }, some w) := by
  rw [Queue.pop, h]

section DecoderStep
variable {s : State} (t : Nat)

theorem State.decoderStep_of_empty (h : s.b2a.items = []) :
    s.decoderStep t = ({ s with reads := s.reads.settled } : State).portPop .b2a := by
  have hp : (s.b2a.pop s.params.capB2a).2 = none := by rw [Queue.pop_answer, h]; rfl
  rw [State.decoderStep]
  simp only [hp]
  rw [State.portPop]
  simp only [hp]

/-- An update in progress is over when the next one begins. -/
theorem State.decoderStep_of_cons {w : Word} {ws : List Word} (h : s.b2a.items = w :: ws) :
    s.decoderStep t = (s.portPop .b2a).consume w t := by
  have hp := Queue.pop_of_cons s.params.capB2a h
  simp only [State.decoderStep, State.portPop, hp]
  rfl

end DecoderStep

/-- Settles O47, by whether the queue is empty. -/
theorem decoderStepPopsAndConsumes : Obligations.DecoderStepPopsAndConsumes := by
  intro s T rest ha
  rw [step_decoderStep ha]
  refine ⟨fun h => ?_, fun w ws h => ⟨⟨_, rfl⟩, ?_⟩⟩
  · rw [State.decoderStep_of_empty (s := s.begin rest) T h]
    rfl
  · rw [State.decoderStep_of_cons (s := s.begin rest) T h]
    rfl

/-! ### Reset and the fatal conditions (R43, R40, R320, R286) -/

/-- Settles O50, by the reset state field by field. -/
theorem resetHasTheTableValues : Obligations.ResetHasTheTableValues := by
  intro p
  have hbuf : ∀ k, k < 64 → (State.resetWith p).pbuf.bit k = p.bufFill ∧ (State.resetWith p).kbuf.bit k = p.bufFill :=
    fun k hk => ⟨fillWord_bit p.bufFill hk, fillWord_bit p.bufFill hk⟩
  have hzones : ∀ j : Fin 32, noZones[j] = { act := 0, deact := 0 } := fun j => by simp [noZones]
  have hzone : ∀ g, (State.resetWith p).status.zone.get g = [] := fun g => by cases g <;> rfl
  exact ⟨rfl, rfl, rfl, hbuf, rfl, rfl, rfl, rfl, rfl, rfl, rfl, rfl, rfl, rfl, rfl, rfl, hzone,
    fun j => ⟨hzones j, hzones j⟩, rfl⟩

/-- Settles O51, by the step of a reset and that of a fatal condition. -/
theorem resetForgetsAndFatalConditionsStop : Obligations.ResetForgetsAndFatalConditionsStop := by
  intro s rest
  exact ⟨fun h => step_rst h, fun h => step_fatal h, fun h => step_fatal h, fun h => step_fatal h, fun h => step_fatal h⟩

/-! ### The event log (R32, R280, R290) -/

/-- What is appended to the log is what is shown on the strobes. -/
def State.Appends (s t : State) : Prop := ∃ es, t.evlog = s.evlog ++ es ∧ t.strobes = s.strobes ++ es

section Appends
variable {s t : State}

theorem State.Appends.of_unchanged (he : t.evlog = s.evlog) (hs : t.strobes = s.strobes) : s.Appends t :=
  ⟨[], by rw [he, List.append_nil], by rw [hs, List.append_nil]⟩

theorem State.takeRise_appends (s : State) : s.Appends s.takeRise := by
  obtain ⟨es, he, hs⟩ := State.riseWith_events { s with prevClk := .high } _
  exact ⟨es, he, hs⟩

theorem State.poll_appends (s : State) (c : Level) : s.Appends (s.poll c) := by
  rcases s.poll_cases c with ⟨-, -, e⟩ | ⟨-, -, e⟩ | ⟨-, e⟩ <;> rw [e]
  · exact s.takeRise_appends
  · exact .of_unchanged rfl rfl
  · exact .of_unchanged rfl rfl

theorem State.tick_appends (s : State) (c d : Level) : s.Appends (s.tick c d) := by
  rcases s.tick_cases c d with ⟨p, e, -⟩ | ⟨-, -, e⟩ | ⟨-, -, e⟩ | ⟨-, e⟩ | ⟨-, e⟩ | ⟨-, e⟩ <;> rw [e]
  case inr.inl => exact ({ s with now := s.now + 1 } : State).takeRise_appends
  all_goals exact .of_unchanged rfl rfl

/-- Every way an operation makes its next state appends to the log what it shows. -/
theorem ExecCase.appends {i : Instr} (hc : ExecCase s i t) : s.Appends t := by
  cases hc with
  | tick c d => exact s.tick_appends c d
  | poll c => exact s.poll_appends _
  | rise => exact s.takeRise_appends
  | shortFrame => exact ⟨[.shortFrame s.bitcnt], rfl, rfl⟩
  | validFrame =>
    obtain ⟨es, he, hs, -⟩ := s.validFrame_events
    exact ⟨es, he, hs⟩
  | pushReject w => exact ⟨_, rfl, rfl⟩
  | request i xs j =>
    obtain ⟨ys, es, p, rs, rd, e⟩ := s.handle_frame xs j
    rw [e]
    exact ⟨es, rfl, rfl⟩
  | pinconfig p d => cases p <;> exact .of_unchanged rfl rfl
  | pop q => cases q <;> exact .of_unchanged rfl rfl
  | ports | none | fall | boundaryMark | resetFrame | drive | ksample | release | psample | pushOverwrite | consume | zonetrack =>
    exact .of_unchanged rfl rfl

/-- After the strobes have gone low, what is appended is what they show. -/
theorem State.Appends.evlog_of_begin {rest : List Action} (h : (s.begin rest).Appends t) : t.evlog = s.evlog ++ t.strobes := by
  obtain ⟨es, he, hs⟩ := h
  rw [he, hs]
  rfl

end Appends

/-- Settles O53, by what a step can write. -/
theorem eventsAreOnlyAppended : Obligations.EventsAreOnlyAppended := by
  intro s t hr hs
  cases step_frame hs with
  | free => exact State.Appends.evlog_of_begin ((s.begin []).tick_appends _ _)
  | op bytes rest i t ha hd hc => exact hc.appends.evlog_of_begin
  | agent a rest q xs =>
    rename_i hev
    exact hev
  | rst rest ha => exact absurd (by rw [ha]; rfl) hr

/-! ### Who writes what (R42, R61, R251, R252, R263) -/

/-- What the sampler's own steps leave alone: the pins' directions, and everything of the agents around the block. -/
structure State.SamplerOnly (s t : State) : Prop where
  dirClk : t.dirClk = s.dirClk
  dirData : t.dirData = s.dirData
  status : t.status = s.status
  reads : t.reads = s.reads
  requests : t.requests = s.requests
  predLast : t.predLast = s.predLast
  predWaiting : t.predWaiting = s.predWaiting
  agenda : t.agenda = s.agenda
  pinSeq : t.pinSeq = s.pinSeq

theorem State.takeRise_samplerOnly (s : State) : s.SamplerOnly s.takeRise where
  dirClk := s.takeRise_dirClk
  dirData := s.takeRise_dirData
  status := s.takeRise_status
  reads := s.takeRise_reads
  requests := s.takeRise_requests
  predLast := s.takeRise_predLast
  predWaiting := s.takeRise_predWaiting
  agenda := s.takeRise_agenda
  pinSeq := s.takeRise_pinSeq

theorem State.poll_samplerOnly (s : State) (c : Level) : s.SamplerOnly (s.poll c) := by
  rcases s.poll_cases c with ⟨-, -, e⟩ | ⟨-, -, e⟩ | ⟨-, e⟩ <;> rw [e]
  · exact s.takeRise_samplerOnly
  · exact ⟨rfl, rfl, rfl, rfl, rfl, rfl, rfl, rfl, rfl⟩
  · exact ⟨rfl, rfl, rfl, rfl, rfl, rfl, rfl, rfl, rfl⟩

theorem State.tick_samplerOnly (s : State) (c d : Level) : s.SamplerOnly (s.tick c d) := by
  rcases s.tick_cases c d with ⟨p, e, -⟩ | ⟨-, -, e⟩ | ⟨-, -, e⟩ | ⟨-, e⟩ | ⟨-, e⟩ | ⟨-, e⟩ <;> rw [e]
  case inr.inl =>
    obtain ⟨h1, h2, h3, h4, h5, h6, h7, h8, h9⟩ := ({ s with now := s.now + 1 } : State).takeRise_samplerOnly
    exact ⟨h1, h2, h3, h4, h5, h6, h7, h8, h9⟩
  all_goals exact ⟨rfl, rfl, rfl, rfl, rfl, rfl, rfl, rfl, rfl⟩

theorem State.poll_now (s : State) (c : Level) : (s.poll c).now = s.now := by
  rcases s.poll_cases c with ⟨-, -, e⟩ | ⟨-, -, e⟩ | ⟨-, e⟩ <;> rw [e]
  · exact s.takeRise_now
  · rfl

/-- Settles O54, by the ways an operation makes its next state: in each, a register is written by an operation that its clause
names, or is as before, so that the clause's premise fails. -/
theorem onlyTheNamedOperationsWriteARegister : Obligations.OnlyTheNamedOperationsWriteARegister := by
  intro i s t h
  cases exec_cases h with
  | tick c d =>
    obtain ⟨h1, h2, h3, h4, h5, h6, h7, h8, h9⟩ := s.tick_samplerOnly c d
    simp [h1, h2, h3, h4, h5, h6, h7, h8, h9]
  | poll c =>
    obtain ⟨h1, h2, h3, h4, h5, h6, h7, h8, h9⟩ := s.poll_samplerOnly (clkLevel s.params c)
    simp [h1, h2, h3, h4, h5, h6, h7, h8, h9, State.poll_now]
  | request i xs j hi =>
    have hrow := (Instr.isRequest_iff i).mp hi
    obtain ⟨ys, es, p, rs, rd, e⟩ := s.handle_frame xs j
    simp [e, hrow, -List.mem_map]
  | pop q => cases q <;> simp [State.portPop, popperOf]
  | pinconfig p d => cases p <;> simp [State.configurePin]
  | pushOverwrite w => simp [State.portPushOverwrite]
  | zonetrack g m T => simp [State.zonetrack]
  | ports | none | rise | fall | boundaryMark | shortFrame | validFrame | resetFrame | drive | ksample | release | psample
  | pushReject | consume =>
    simp

end Sys2Proof.Machine
end

section
/-! Proofs about the readers of the status (spec/20_memory.md R80, spec/44_consumers.md R257, R263, R264): what the responder and the
predictor can read, and when the predictor calls its collaborator. -/

namespace Sys2Proof.Machine

/-! ### The steps of a reader, on the state they are presented to -/

section ReaderSteps
variable {s : State} {rest : List Action}

/-- The last step of a request: the response, and the read is over. -/
theorem step_respond {pick : List Nat} {j : Bool} {rs : List Request} (ha : s.agenda = .producerStep pick :: rest)
    (h : s.requests = { symbols := [], json := j } :: rs) :
    step s = .next (({ s with strobes := [], agenda := rest, requests := rs } : State).respond j (s.readOf .responder pick)) := by
  rw [step_producerStep ha, State.producerStep_respond (s := s.begin rest) h]
  rfl

/-- A wake up to its call, when the predictor waits for none. -/
theorem step_call {pick : List Nat} {utc : Text} (h : s.predWaiting = none) :
    step { s with agenda := .predictorCall pick utc :: rest } = .next { s with
      strobes := [], agenda := rest, predLast := (s.readOf .predictor pick).zones
      predWaiting := if (s.readOf .predictor pick).zones = s.predLast then none
        else some (PredCall.on utc (s.readOf .predictor pick))
      reads := { s.reads with predictor := none }, ports := { s.ports with snapshot := s.readOf .predictor pick } } := by
  rw [step_predictorCall rfl, State.predictorCall_free (by exact h)]
  rfl

theorem step_begin_read {who : Reader} (h : s.canRead who = true) :
    step { s with agenda := .readBegin who :: rest } = .next { s with strobes := [], agenda := rest, reads := s.reads.set who (some (s.reads.older who)) } := by
  have hc : (({ s with agenda := .readBegin who :: rest } : State).begin rest).canRead who = true := by
    cases who <;> exact h
  rw [step_readBegin rfl, State.readBegin, if_pos hc]
  rfl

end ReaderSteps

theorem State.canRead_responder {s : State} {j : Bool} {rs : List Request} (h : s.requests = { symbols := [], json := j } :: rs) :
    s.canRead .responder = true := by
  rw [State.canRead, h]

theorem State.canRead_predictor {s : State} (h : s.predWaiting = none) : s.canRead .predictor = true := by
  rw [State.canRead, h]
  rfl

/-- Settles O49, by what each reader's step shows and leaves, and by what an update and the beginning of a read leave. -/
theorem overlappingReadMixesWholeFields : Obligations.OverlappingReadMixesWholeFields := by
  intro s rest
  have hresp : ∀ {j rs} (pick : List Nat), s.requests = { symbols := [], json := j } :: rs →
      step { s with agenda := .producerStep pick :: rest } = .next _ :=
    fun pick h => step_respond (s := { s with agenda := .producerStep pick :: rest }) rfl h
  refine ⟨fun j rs h => ⟨fun snap => ?_, fun pick => ⟨_, hresp pick h, rfl, rfl⟩⟩,
    fun h utc => ⟨fun snap => ?_, fun pick => ⟨_, step_call h, rfl, rfl⟩⟩, fun T h => ?_, fun j rs h => ?_, fun h => ?_⟩
  · refine Iff.trans ?_ (s.readOf_iff .responder snap)
    refine exists_congr fun pick => ⟨?_, fun e => ⟨_, hresp pick h, e⟩⟩
    rintro ⟨t, ht, e⟩
    rw [hresp pick h] at ht
    cases ht
    exact e
  · refine Iff.trans ?_ (s.readOf_iff .predictor snap)
    refine exists_congr fun pick => ⟨?_, fun e => ⟨_, step_call h, e⟩⟩
    rintro ⟨t, ht, e⟩
    rw [step_call h] at ht
    cases ht
    exact e
  · obtain ⟨w, ws, hw⟩ := List.exists_cons_of_ne_nil h
    refine ⟨_, step_decoderStep rfl, ?_⟩
    rw [State.decoderStep_of_cons T (by exact hw)]
    rfl
  · exact step_begin_read (State.canRead_responder h)
  · exact step_begin_read (State.canRead_predictor h)

/-! ### The timestamps of a call (R264) -/

theorem PanelStatus.zoneAct_getElem? (st : PanelStatus) (j : Fin 32) : st.zoneAct[j.val]? = some st.zones[j].act := by
  simp [PanelStatus.zoneAct]

theorem PanelStatus.zoneDeact_getElem? (st : PanelStatus) (j : Fin 32) : st.zoneDeact[j.val]? = some st.zones[j].deact := by
  simp [PanelStatus.zoneDeact]

@[simp] theorem PanelStatus.zoneAct_length (st : PanelStatus) : st.zoneAct.length = 32 := by simp [PanelStatus.zoneAct]

@[simp] theorem PanelStatus.zoneDeact_length (st : PanelStatus) : st.zoneDeact.length = 32 := by simp [PanelStatus.zoneDeact]

/-- The activations come first. -/
theorem PanelStatus.stamps_getElem? (st : PanelStatus) (j : Fin 32) :
    st.stamps[j.val]? = some st.zones[j].act ∧ st.stamps[32 + j.val]? = some st.zones[j].deact := by
  constructor
  · rw [PanelStatus.stamps, List.getElem?_append_left (by simp), PanelStatus.zoneAct_getElem?]
  · rw [PanelStatus.stamps, List.getElem?_append_right (by simp), PanelStatus.zoneAct_length, Nat.add_sub_cancel_left,
      PanelStatus.zoneDeact_getElem?]

/-! ### The predictor (R263, R264) -/

/-- A count that grows by the truth of a test grows exactly when the test holds. -/
theorem lt_add_toNat_iff (n : Nat) (b : Bool) : n < n + b.toNat ↔ b = true := by cases b <;> simp

theorem any_lineTriggers_iff (lines : List Text) :
    lines.any lineTriggers = true ↔ ∃ line ∈ lines, ∃ k, 1 ≤ k ∧ k ≤ 8 ∧
      ("prediction ".toList ++ Nat.toDigits 10 k ++ ": 2".toList) <:+: line := by
  simp only [List.any_eq_true, lineTriggers_iff]

/-- A wake whose call returns at once is the call and its return, one step after the other (log 33). -/
theorem step_wake_eq_stepAll {s : State} {rest : List Action} (h : s.predWaiting = none) (pick : List Nat) (utc : Text)
    (answer : Option (List Text)) :
    step { s with agenda := .predictorWake pick utc answer :: rest }
      = stepAll 2 { s with agenda := .predictorCall pick utc :: .predictorReturn answer :: rest } := by
  have hw : ({ s with strobes := [], agenda := rest } : State).predWaiting = none := h
  rw [stepAll_next (step_call h), stepAll_next (step_predictorReturn rfl), step_predictorWake rfl]
  show Host.Outcome.next (({ s with strobes := [], agenda := rest } : State).predictorWake pick utc answer) = _
  rw [State.predictorWake_free hw, State.predictorCall_free hw]
  rfl

/-- Settles O48, by what a wake, its call and its return are when the predictor waits and when it does not. -/
theorem predictorInvokesOnlyOnChange : Obligations.PredictorInvokesOnlyOnChange := by
  intro s rest
  refine ⟨fun h pick utc => ?_, fun c h answer => ?_, fun h pick utc answer => ⟨step_wake_eq_stepAll h pick utc answer, ?_⟩,
    fun c h pick utc answer => ⟨?_, ?_⟩⟩
  · refine ⟨s.readOf .predictor pick, _, step_call h, rfl, (s.readOf_iff .predictor _).mp ⟨pick, rfl⟩,
      fun hp => ?_, fun he => if_pos he, fun hne => ⟨_, if_neg hne, rfl, rfl, ?_, fun j => ?_⟩⟩
    · rw [hp, State.readOf_now]
    · simp [PredCall.on, PanelStatus.stamps]
    · exact PanelStatus.stamps_getElem? _ j
  · have hw : ({ s with strobes := [], agenda := rest } : State).predWaiting = some c := h
    cases answer with
    | none =>
      refine ⟨_, (step_predictorReturn rfl).trans (congrArg _ (State.predictorReturn_failed hw)), rfl,
        fun _ => ⟨rfl, rfl, rfl⟩, nofun⟩
    | some lines =>
      refine ⟨_, (step_predictorReturn rfl).trans (congrArg _ (State.predictorReturn_lines hw)), rfl, nofun, ?_⟩
      rintro _ ⟨⟩
      refine ⟨rfl, rfl, (any_lineTriggers_iff lines).symm.trans (lt_add_toNat_iff _ _).symm⟩
  · exact (step_predictorReturn rfl).trans
      (congrArg _ (State.predictorReturn_free (s := { s with strobes := [], agenda := rest }) h))
  · exact (step_predictorCall rfl).trans
      (congrArg _ (State.predictorCall_waiting (s := { s with strobes := [], agenda := rest }) h))
  · exact (step_predictorWake rfl).trans
      (congrArg _ (State.predictorWake_waiting (s := { s with strobes := [], agenda := rest }) h))

end Sys2Proof.Machine
end

section
/-! Proofs about the host (spec/44_consumers.md R251 to R262, spec/30_encoding.md R115, R116): the zone timestamps, a consumed word,
and the request rows with their responses. -/

namespace Sys2Proof

/-! ### The two hexadecimal digits of a byte (R258) -/

/-- The last bits of a field are the field that begins after the others. -/
theorem field_add_mod (w : Word) (off m d : Nat) : field w off (m + d) % 2 ^ d = field w (off + m) d := by
  induction d with
  | zero => simp [Nat.mod_one, field]
  | succ d ih =>
    have hbit := Bool.toNat_le (w.bit (off + m + d))
    rw [Nat.add_succ, field, field, ← ih, Nat.pow_succ', ← Nat.add_assoc off m d, Nat.mod_mul,
      show (2 * field w off (m + d) + (w.bit (off + m + d)).toNat) / 2 = field w off (m + d) by omega]
    omega

theorem hexByte_byte (w : Word) (j : Nat) :
    hexByte (w.byte j) = [Nat.digitChar (field w (8 * j) 4), Nat.digitChar (field w (8 * j + 4) 4)] := by
  have hhi : w.byte j / 16 = field w (8 * j) 4 := field_add_div w (8 * j) 4 4
  have hlo : w.byte j % 16 = field w (8 * j + 4) 4 := field_add_mod w (8 * j) 4 4
  have hlt : field w (8 * j) 4 < 16 := field_lt w (8 * j) 4
  rw [hexByte, hhi, hlo, Nat.mod_eq_of_lt hlt]

end Sys2Proof

namespace Sys2Proof.Machine

theorem traceBytes_eq (w : Word) :
    traceBytes w = ((List.range 8).map fun j =>
      [' ', Nat.digitChar (field w (8 * j) 4), Nat.digitChar (field w (8 * j + 4) 4)]).flatten := by
  simp only [traceBytes, hexByte_byte]

/-! ### The tracker (R252 to R256) -/

section ZoneRecord
variable (t : Nat) (r : ZoneRecord)

theorem ZoneRecord.see_active : (r.see true t).deact = r.deact ∧ (r.see true t).act = if r.act > r.deact then r.act else t := by
  rw [ZoneRecord.see_true]
  split <;> exact ⟨rfl, rfl⟩

theorem ZoneRecord.see_inactive :
    (r.see false t).act = r.act ∧ (r.see false t).deact = if r.deact < r.act then t else r.deact := by
  rw [ZoneRecord.see_false]
  split <;> exact ⟨rfl, rfl⟩

theorem ZoneRecord.active_eq_false_iff : r.active = false ↔ r.act ≤ r.deact := by simp [ZoneRecord.active]

variable {t r}

/-- R254: after a report of activity the activation is not behind, and level only in a tie with this second. -/
theorem ZoneRecord.see_true_ends_active (hd : r.deact ≤ t) :
    (r.see true t).deact ≤ (r.see true t).act ∧
      ((r.see true t).active = false → (r.see true t).act = t ∧ (r.see true t).deact = t) := by
  rw [ZoneRecord.active_eq_false_iff]
  obtain ⟨h1, h2⟩ := r.see_active t
  rw [h1, h2]
  split <;> omega

/-- R255: after a report of inactivity the zone is inactive. -/
theorem ZoneRecord.see_false_ends_inactive (ha : r.act ≤ t) : (r.see false t).active = false := by
  rw [ZoneRecord.active_eq_false_iff]
  obtain ⟨h1, h2⟩ := r.see_inactive t
  rw [h1, h2]
  split <;> omega

/-- R256: active, inactive, active within one second ends in the tie. -/
theorem ZoneRecord.see_thrice_ties (hi : r.act ≤ r.deact) (hd : r.deact ≤ t) :
    ((r.see true t).see false t).see true t = { act := t, deact := t } := by
  have h1 : r.see true t = { r with act := t } := by rw [ZoneRecord.see_true, if_neg (by omega)]
  have h2 : ({ r with act := t } : ZoneRecord).see false t = { act := t, deact := t } := by
    rw [ZoneRecord.see_false]
    split
    · rfl
    · next h => exact congrArg (ZoneRecord.mk t) (by dsimp only at h; omega)
  rw [h1, h2, ZoneRecord.see_true, if_neg (by simp)]

end ZoneRecord

/-- A zone of the group after a report. -/
theorem State.zonetrack_zone {g : Group} {j : Fin 32} (m : BitVec 32) (t : Nat) (s : State)
    (hj : 8 * (g.num - 1) ≤ j.val ∧ j.val < 8 * g.num) :
    (s.zonetrack g m t).status.zones[j] = s.status.zones[j].see (m.getLsbD j) t :=
  (zoneTrack_getElem g m t s.status.zones j).trans (if_pos hj)

/-- Settles O43, by each zone's own record. -/
theorem zonetrackTouchesOnlyTheGroup : Obligations.ZonetrackTouchesOnlyTheGroup := by
  intro g m T s
  refine ⟨s.zonetrack g m T, rfl, rfl, fun j => ⟨fun hj => ?_, fun hj => ⟨fun hm => ?_, fun hm => ?_⟩⟩⟩
  · exact (zoneTrack_getElem g m T s.status.zones j).trans (if_neg hj)
  · rw [State.zonetrack_zone m T s hj, hm]
    exact ZoneRecord.see_active T _
  · rw [State.zonetrack_zone m T s hj, hm]
    exact ZoneRecord.see_inactive T _

/-- Settles O44, by the zone's own record. -/
theorem zoneActivityFollowsTheReports : Obligations.ZoneActivityFollowsTheReports := by
  intro g m T s j hlo hhi ha hd
  have hj : 8 * (g.num - 1) ≤ j.val ∧ j.val < 8 * g.num := ⟨hlo, hhi⟩
  refine ⟨s.zonetrack g m T, rfl, ?_⟩
  rw [State.zonetrack_zone m T s hj]
  refine ⟨fun hm => ?_, fun hm => ?_, fun hm hi => ?_⟩
  · rw [hm]
    exact ZoneRecord.see_true_ends_active hd
  · rw [hm]
    exact ZoneRecord.see_false_ends_inactive ha
  · refine ⟨((s.zonetrack g m T).zonetrack g 0#32 T).zonetrack g m T, rfl, ?_⟩
    have h0 : (0#32).getLsbD j = false := by simp
    rw [State.zonetrack_zone _ _ _ hj, State.zonetrack_zone _ _ _ hj, State.zonetrack_zone _ _ _ hj, hm, h0,
      ZoneRecord.see_thrice_ties ((ZoneRecord.active_eq_false_iff _).mp hi) hd]
    exact ⟨rfl, rfl, by simp [ZoneRecord.active]⟩

/-! ### A consumed word (R251, R257, R258) -/

/-- Settles O42, by the status after a consumed word and its trace line. -/
theorem consumeUpdatesOnlyTheMatchedStatus : Obligations.ConsumeUpdatesOnlyTheMatchedStatus := by
  intro w T s
  have hzones : (s.consume w T).status.zones = _ := PanelStatus.observe_zones (decodeWord s.params w) T s.status
  refine ⟨s.consume w T, s.showDecoded w, rfl, rfl, rfl, ?_, PanelStatus.observe_obsTime .., PanelStatus.observe_led ..,
    PanelStatus.observe_zone _ _ _, fun hk => ?_, fun g hk => ⟨_, rfl, ?_⟩⟩
  · rw [← traceBytes_eq]
    rfl
  · rw [hzones]
    split
    · next g hg => exact absurd hg (hk g)
    all_goals rfl
  · rw [hzones, show (decodeWord s.params w).kind = .zone g from hk]
    rfl

/-! ### The request rows (R116, R259, R260) -/

/-- A request row is the request of its symbols, in its form. -/
theorem exec_request {i : Instr} (h : Instr.isRequest i = true) (s : State) :
    exec i s = .next (s.handle (requestSymbols i) (requestJson i)) := by
  cases i
  case reqDigits | reqStar | reqPound | reqStay | reqAway | reqIdle | reqTag | reqOther => rfl
  all_goals cases h

/-- The rows that are no digits: one symbol each, and the JSON form for `tag`. -/
theorem nameRows_request {body : List Byte} {x : Instr × Symbol} (hx : x ∈ nameRows body) :
    Instr.isRequest x.1 = true ∧ requestSymbols x.1 = [x.2] ∧ requestJson x.1 = decide (x.1 = .reqTag) := by
  simp only [nameRows, List.mem_cons, List.not_mem_nil, or_false] at hx
  rcases hx with rfl | rfl | rfl | rfl | rfl | rfl | rfl <;> exact ⟨rfl, rfl, rfl⟩

/-- A whole request with room to count: what fits is pushed in order, what does not is reported. -/
theorem State.serve_pushes {s : State} (h : s.a2b.items.length ≤ s.params.capA2b) (xs : List Symbol) (j : Bool) :
    ∃ t, s.serve xs j = t ∧
      t = { s with a2b := t.a2b, evlog := t.evlog, strobes := t.strobes, ports := t.ports,
                   reads := { s.reads with responder := none } } ∧
      t.a2b.items = (s.a2b.items ++ xs.map s.params.cmd).take s.params.capA2b ∧
      t.evlog = s.evlog ++ List.replicate (s.a2b.items.length + xs.length - s.params.capA2b) .a2bFull := by
  obtain ⟨a, es, p, he, ha, hes⟩ := s.pushSymbols_cases xs h
  refine ⟨_, rfl, ?_⟩
  rw [State.serve, he, ← hes]
  exact ⟨rfl, ha, rfl⟩

/-- A body that holds a line end leaves bytes after its line. -/
theorem takeLine_of_lineEnd {body : List Byte} (h : lineEnd ∈ body) :
    ∃ l b r, takeLine (body ++ [lineEnd]) = .ok (l, b :: r) := by
  induction body with
  | nil => cases h
  | cons b bs ih =>
    by_cases hb : b = lineEnd
    · obtain ⟨c, r, e⟩ := List.exists_cons_of_ne_nil (List.concat_ne_nil lineEnd bs)
      exact ⟨[], c, r, by simp [takeLine, hb, e]⟩
    · obtain ⟨l, c, r, e⟩ := ih (List.mem_of_ne_of_mem (Ne.symm hb) h)
      exact ⟨b :: l, c, r, by simp [takeLine, hb, e]⟩

theorem decode_lineBytes_of_lineEnd {body : List Byte} (h : lineEnd ∈ body) :
    decode (lineBytes body) = .error .trailingBytes := by
  obtain ⟨l, b, r, e⟩ := takeLine_of_lineEnd h
  simp [decode, decodeOp, lineBytes, e, Parsed.map]

/-- A body whose line decodes holds no line end, and its row is the one it spells. -/
theorem classifyRequest_of_decode {body : List Byte} {i : Instr} (h : decode (lineBytes body) = .ok i) :
    classifyRequest body = i := by
  by_cases hl : lineEnd ∈ body
  · rw [decode_lineBytes_of_lineEnd hl] at h
    cases h
  · rw [decode_lineBytes hl] at h
    exact Except.ok.inj h

/-- A request presented in steps, with nothing between, ends as the row does (R259, R337). -/
theorem stepAll_request_eq_exec {s : State} {body : List Byte} {i : Instr} {rest : List Action} {k : Nat}
    (hi : Instr.isRequest i = true) (hc : classifyRequest body = i) (hk : (requestSymbols i).length = k) (hr : s.requests = [])
    (ha : s.agenda = .request body :: List.replicate (k + 1) (.producerStep []) ++ rest) :
    ∃ t, exec i { s with strobes := [], agenda := rest } = .next t ∧ stepAll (k + 2) s = .next { t with strobes := [] } := by
  subst hk
  let u : State := (s.begin (List.replicate ((requestSymbols i).length + 1) (.producerStep []) ++ rest)).accept (Request.ofRow i)
  have hu : step s = .next u := (step_request ha).trans (by rw [hc]; rfl)
  have hreq : u.requests = [{ symbols := requestSymbols i, json := requestJson i }] := by
    show s.requests ++ [Request.ofRow i] = _
    rw [hr]
    rfl
  have hfree : ({ u with strobes := [], requests := [], agenda := rest } : State) = { s with strobes := [], agenda := rest } := by
    rw [← hr]
    rfl
  have hrun := stepAll_request (requestSymbols i) (requestJson i) rest u hreq rfl
  rw [hfree] at hrun
  exact ⟨_, (exec_request hi _).trans (congrArg _ (State.handle_free hr)), (stepAll_next hu).trans hrun⟩

/-- Settles O39: a row is the request of its symbols, whole when the responder is free and waiting otherwise; its steps are its
pushes. -/
theorem requestRowsPushInOrder : Obligations.RequestRowsPushInOrder := by
  intro s h
  refine ⟨fun hr => ⟨fun ds => ?_, fun body x hx => ?_⟩, fun hr => ⟨fun ds => ?_, fun body x hx => ?_⟩,
    fun x xs j rs pick rest hr ha => ⟨⟨_, step_producerStep ha⟩, ?_⟩, fun body i k rest hd hk hr ha => ?_⟩
  · rw [exec_request rfl, State.handle_free hr]
    obtain ⟨t, he, hf, hq, hl⟩ := State.serve_pushes h (requestSymbols (.reqDigits ds)) false
    refine ⟨t, congrArg _ he, hf, ?_, ?_⟩
    · rw [hq, requestSymbols, List.map_map]
      rfl
    · rw [hl, requestSymbols, List.length_map]
  · obtain ⟨hi, hs, -⟩ := nameRows_request hx
    rw [exec_request hi, State.handle_free hr, hs]
    obtain ⟨t, he, hf, hq, hl⟩ := State.serve_pushes h [x.2] (requestJson x.1)
    exact ⟨t, congrArg _ he, hf, hq, hl⟩
  · rw [exec_request rfl, State.handle_busy hr]
    rfl
  · obtain ⟨hi, hs, hj⟩ := nameRows_request hx
    rw [exec_request hi, State.handle_busy hr, hs, hj]
    rfl
  · rw [step_producerStep ha, State.producerStep_push (s := s.begin rest) hr]
    rfl
  · have hc := classifyRequest_of_decode hd
    obtain ⟨ds, rfl, rfl⟩ | ⟨hm, rfl⟩ := hk
    · exact stepAll_request_eq_exec rfl hc (List.length_map ..) hr ha
    · obtain ⟨x, hx, rfl⟩ := List.mem_map.mp hm
      obtain ⟨hi, hs, -⟩ := nameRows_request hx
      exact stepAll_request_eq_exec hi hc (congrArg List.length hs) hr ha

/-! ### The responses (R261, R262) -/

/-- A request row served at once answers from the status of the moment. -/
theorem exec_request_response {i : Instr} {s t : State} (hi : Instr.isRequest i = true) (hr : s.requests = [])
    (h : exec i s = .next t) : t.ports.snapshot = s.status ∧
      t.ports.response = if requestJson i then jsonResponse s.status else plainResponse s.status := by
  rw [exec_request hi, State.handle_free hr] at h
  cases h
  exact ⟨rfl, rfl⟩

theorem plainResponse_eq (st : PanelStatus) :
    plainResponse st = List.intercalate ", ".toList [st.led, st.zone.g1, st.zone.g2, st.zone.g3, st.zone.g4] ++ ",".toList := by
  rw [plainResponse, joinWith_eq_intercalate]
  rfl

/-- Settles O40, by the row served at once and the last step of a request. -/
theorem plainResponseListsTheStrings : Obligations.PlainResponseListsTheStrings := by
  intro s line hline
  have he : line = plainResponse := funext fun st => (hline st).trans (plainResponse_eq st).symm
  subst he
  refine ⟨fun i t hi hr h => ?_, fun pick rs rest hr ha => ⟨_, (s.readOf_iff .responder _).mp ⟨pick, rfl⟩, fun hp => ?_,
    step_respond ha hr⟩⟩
  · obtain ⟨ds, rfl⟩ | ⟨body, hm, hne⟩ := hi
    · exact exec_request_response (i := .reqDigits ds) rfl hr h
    · obtain ⟨x, hx, rfl⟩ := List.mem_map.mp hm
      obtain ⟨hi, -, hj⟩ := nameRows_request hx
      simpa [hj, hne] using exec_request_response hi hr h
  · rw [hp, State.readOf_now]

/-- The texts of the zones' timestamps, zone 1 first. -/
theorem jsonNumbers_zones (st : PanelStatus) (f : ZoneRecord → Nat) :
    jsonNumbers (st.zones.toList.map f)
      = "[".toList ++ List.intercalate ", ".toList ((List.finRange 32).map fun j => Nat.toDigits 10 (f st.zones[j])) ++ "]".toList := by
  have hl : (st.zones.toList.map f).map decText = (List.finRange 32).map fun j => Nat.toDigits 10 (f st.zones[j]) :=
    List.ext_getElem (by simp) fun i h1 h2 => by simp [decText]
  rw [jsonNumbers, hl, joinWith_eq_intercalate]
  rfl

theorem jsonResponse_eq (st : PanelStatus) :
    jsonResponse st = [Char.ofNat 0x7b] ++ "\"obsTime\": ".toList ++ Nat.toDigits 10 st.obsTime ++ ", \"zoneAct\": [".toList ++
        List.intercalate ", ".toList ((List.finRange 32).map fun j => Nat.toDigits 10 (st.zones[j].act)) ++
      "], \"zoneDeAct\": [".toList ++
        List.intercalate ", ".toList ((List.finRange 32).map fun j => Nat.toDigits 10 (st.zones[j].deact)) ++
      "]".toList ++ [Char.ofNat 0x7d] := by
  have hact : ", \"zoneAct\": [".toList = ", \"zoneAct\": ".toList ++ "[".toList := rfl
  have hdeact : "], \"zoneDeAct\": [".toList = "]".toList ++ ", \"zoneDeAct\": ".toList ++ "[".toList := rfl
  rw [jsonResponse, PanelStatus.zoneAct, PanelStatus.zoneDeact, jsonNumbers_zones, jsonNumbers_zones, hact, hdeact]
  simp only [List.append_assoc]
  rfl

/-- Settles O41, by the row served at once and the last step of a request. -/
theorem tagResponseIsTheJsonObject : Obligations.TagResponseIsTheJsonObject := by
  intro s object hobject
  have he : object = jsonResponse := funext fun st => (hobject st).trans (jsonResponse_eq st).symm
  subst he
  refine ⟨fun hr => ⟨_, exec_request rfl s, ?_⟩, fun pick rs rest hr ha => ⟨_, (s.readOf_iff .responder _).mp ⟨pick, rfl⟩,
    fun hp => ?_, step_respond ha hr⟩⟩
  · exact exec_request_response (i := .reqTag) rfl hr rfl
  · rw [hp, State.readOf_now]

end Sys2Proof.Machine
end
